-- ==== Sys2Proof/Word.lean ====
section
/-! DEFINITION. Words of the machine: bytes and host words (00_scope.md R7), and sequences of bytes (R8). -/

namespace Sys2Proof

/-- A byte: 8 bits, unsigned (R7). -/
abbrev Byte := BitVec 8

/-- A host command word or a result word: 32 bits (R92, R97). -/
abbrev HostWord := BitVec 32

/-- `s^n` of R8: the sequence `s` repeated `n` times. -/
def repeatBytes (n : Nat) (s : List Byte) : List Byte :=
  match n with
  | 0 => []
  | k + 1 => s ++ repeatBytes k s

end Sys2Proof
end

