-- ==== Sys2Proof/Syntax.lean ====
section
/-! DEFINITION. Syntax: one constructor of `Instr` for each row of the opcode table, at its three levels
(30_encoding.md R90): host operations, primitives, bridge commands. -/

namespace Sys2Proof

/-- The instructions of the three levels of R90. -/
inductive Instr where
  /-- OPEN a: host operation (R130). -/
  | openSession (a : BitVec 7)
  /-- CLOSE: host operation (R137). -/
  | closeSession
  /-- SETADDR a: host operation (R139). -/
  | setAddr (a : BitVec 7)
  /-- RDREG r, n: host operation, register address and read count (R171). -/
  | rdReg (r n : Byte)
  /-- WRREG r, v: host operation, register address and value (R175). -/
  | wrReg (r v : Byte)
  /-- START: primitive (R153). -/
  | start
  /-- STOP: primitive (R154). -/
  | stop
  /-- WRBYTE(v): primitive (R155). -/
  | wrByte (v : Byte)
  /-- RDBYTE(w): primitive, `w` is wantAck (R157). -/
  | rdByte (w : Bool)
  /-- Poll(n): primitive, `n` is the expected number of response bytes (R190). -/
  | poll (n : Nat)
  /-- GPIO d v: bridge command 0x80, direction mask then value mask (R101). -/
  | gpio (d v : Byte)
  /-- BYTE_OUT v: bridge command 0x11 (R104). -/
  | byteOut (v : Byte)
  /-- BYTE_IN: bridge command 0x20 (R105). -/
  | byteIn
  /-- BIT_IN: bridge command 0x22 (R106). -/
  | bitIn
  /-- BIT_OUT b: bridge command 0x13 (R107). -/
  | bitOut (b : Byte)
  /-- CLK_NODIV5: bridge command 0x8A (R108). -/
  | clkNoDiv5
  /-- CLK_NOADAPT: bridge command 0x97 (R108). -/
  | clkNoAdapt
  /-- CLK_PHASE: bridge command 0x8C (R108). -/
  | clkPhase
  /-- LOOP_OFF: bridge command 0x85 (R108). -/
  | loopOff
  /-- SEND_NOW: bridge command 0x87 (R108). -/
  | sendNow
  /-- SET_DIV l h: bridge command 0x86, low byte then high byte (R109). -/
  | setDiv (l h : Byte)
  /-- SYNC1: bridge command 0xAA, first sentinel (R112). -/
  | sync1
  /-- SYNC2: bridge command 0xAB, second sentinel (R112). -/
  | sync2
deriving DecidableEq, Repr

/-- The three levels of R90. -/
inductive Level where
  | hostOperation
  | primitive
  | bridgeCommand
deriving DecidableEq, Repr

/-- The level of an instruction (R90). -/
def Instr.level : Instr → Level
  | .openSession _ => .hostOperation
  | .closeSession => .hostOperation
  | .setAddr _ => .hostOperation
  | .rdReg _ _ => .hostOperation
  | .wrReg _ _ => .hostOperation
  | .start => .primitive
  | .stop => .primitive
  | .wrByte _ => .primitive
  | .rdByte _ => .primitive
  | .poll _ => .primitive
  | .gpio _ _ => .bridgeCommand
  | .byteOut _ => .bridgeCommand
  | .byteIn => .bridgeCommand
  | .bitIn => .bridgeCommand
  | .bitOut _ => .bridgeCommand
  | .clkNoDiv5 => .bridgeCommand
  | .clkNoAdapt => .bridgeCommand
  | .clkPhase => .bridgeCommand
  | .loopOff => .bridgeCommand
  | .sendNow => .bridgeCommand
  | .setDiv _ _ => .bridgeCommand
  | .sync1 => .bridgeCommand
  | .sync2 => .bridgeCommand

end Sys2Proof
end

