-- ==== Sys2Proof/WellFormed.lean ====
section
/-! DEFINITION. WellFormed: the operand values the block may emit (30_encoding.md R102, R103, R107;
41_primitives.md R152 follows). The operands of every other instruction are exactly as wide as their fields, so they need no check. The
decoder and the machine do not rely on these checks: a bridge command with other operands still has its meaning
(60_exceptions.md R229). -/

namespace Sys2Proof

/-- The direction masks the block emits: bits 7 to 2 are 0 (R102). -/
def directionMaskOk (d : Byte) : Bool := d &&& 0xFC#8 == 0x00#8

/-- The value byte the block emits: VAL0 = 0x00 (R103). -/
def valueMaskOk (v : Byte) : Bool := v == 0x00#8

/-- The data bytes of BIT_OUT the block emits: 0x00 = ack, 0xFF = nak (R107). -/
def ackByteOk (b : Byte) : Bool := b == 0x00#8 || b == 0xFF#8

/-- An instruction is well formed when its operands are values the block may emit. -/
def Instr.wellFormed : Instr → Bool
  | .openSession _ => true
  | .closeSession => true
  | .setAddr _ => true
  | .rdReg _ _ => true
  | .wrReg _ _ => true
  | .start => true
  | .stop => true
  | .wrByte _ => true
  | .rdByte _ => true
  | .poll _ => true
  | .gpio d v => directionMaskOk d && valueMaskOk v
  | .byteOut _ => true
  | .byteIn => true
  | .bitIn => true
  | .bitOut b => ackByteOk b
  | .clkNoDiv5 => true
  | .clkNoAdapt => true
  | .clkPhase => true
  | .loopOff => true
  | .sendNow => true
  | .setDiv _ _ => true
  | .sync1 => true
  | .sync2 => true

end Sys2Proof
end

