-- ==== Sys2Proof/Decode.lean ====
section
/-! DEFINITION. Decode: the host command word (30_encoding.md R92 to R96) and the bridge command stream (R100 to R109,
R112), total on any word and any bytes, rejecting by name; then the encoders, written from the same tables.
Primitives have no encoding (R90). -/

namespace Sys2Proof

/-! ## Host command words -/

/-- Why a host word selects no row (R96). -/
inductive HostReject where
  /-- `OPC` is 0x0 or 0x6 to 0xF. -/
  | undefinedOpc
  /-- `RSV` is not 0. -/
  | reservedBits
  /-- A field that must be 0 for its operation is not 0. -/
  | nonzeroField
deriving DecidableEq, Repr

/-- `OPC`, bits 31:28 (R92). -/
def hostOpc (w : HostWord) : BitVec 4 := w.extractLsb' 28 4

/-- `RSV`, bits 27:24 (R92). -/
def hostRsv (w : HostWord) : BitVec 4 := w.extractLsb' 24 4

/-- `CNT`, bits 23:16 (R92). -/
def hostCnt (w : HostWord) : Byte := w.extractLsb' 16 8

/-- `REG`, bits 15:8 (R92). -/
def hostReg (w : HostWord) : Byte := w.extractLsb' 8 8

/-- `ARG`, bits 7:0 (R92). -/
def hostArg (w : HostWord) : Byte := w.extractLsb' 0 8

/-- The device address, `ARG[6:0]` (R92). -/
def hostAddr (w : HostWord) : BitVec 7 := w.extractLsb' 0 7

/-- The name of the reason a word that selects no row of R94 is illegal (R96). -/
def hostRejectOf (w : HostWord) : HostReject :=
  if (hostOpc w).toNat = 0 ∨ 6 ≤ (hostOpc w).toNat then .undefinedOpc
  else if hostRsv w ≠ 0#4 then .reservedBits
  else .nonzeroField

/-- Decode of a host word by the match and mask of R94; every other word is illegal (R96). -/
def decodeHost (w : HostWord) : Except HostReject Instr :=
  if w &&& 0xFFFFFF80#32 = 0x10000000#32 then .ok (.openSession (hostAddr w))
  else if w &&& 0xFFFFFFFF#32 = 0x20000000#32 then .ok .closeSession
  else if w &&& 0xFFFFFF80#32 = 0x30000000#32 then .ok (.setAddr (hostAddr w))
  else if w &&& 0xFF0000FF#32 = 0x40000000#32 then .ok (.rdReg (hostReg w) (hostCnt w))
  else if w &&& 0xFFFF0000#32 = 0x50000000#32 then .ok (.wrReg (hostReg w) (hostArg w))
  else .error (hostRejectOf w)

/-! ## Bridge command stream -/

/-- Why the front of a command stream is no command of R100. -/
inductive BridgeReject where
  /-- The stream is empty. -/
  | empty
  /-- The operands of the last command have not all arrived. -/
  | incomplete
  /-- The byte in opcode position is none of the thirteen opcodes of R100 (R114). -/
  | undefinedOpcode
  /-- A length operand is not the one the block emits (R104 to R107). -/
  | lengthOperand
deriving DecidableEq, Repr

/-- The total length of a command, a function of its opcode alone (R100). -/
def commandLength (op : Byte) : Option Nat :=
  if op = 0x80#8 then some 3
  else if op = 0x11#8 then some 4
  else if op = 0x20#8 then some 3
  else if op = 0x22#8 then some 2
  else if op = 0x13#8 then some 3
  else if op = 0x86#8 then some 3
  else if op = 0x8A#8 then some 1
  else if op = 0x97#8 then some 1
  else if op = 0x8C#8 then some 1
  else if op = 0x85#8 then some 1
  else if op = 0x87#8 then some 1
  else if op = 0xAA#8 then some 1
  else if op = 0xAB#8 then some 1
  else none

/-- The operands of GPIO: direction mask, then value mask (R101). -/
def decodeGpio : List Byte → Except BridgeReject (Instr × List Byte)
  | d :: v :: rest => .ok (.gpio d v, rest)
  | _ => .error .incomplete

/-- The operands of BYTE_OUT: a two-byte length operand 0x0000, then the data byte (R104). -/
def decodeByteOut : List Byte → Except BridgeReject (Instr × List Byte)
  | l :: h :: v :: rest =>
    if l = 0x00#8 ∧ h = 0x00#8 then .ok (.byteOut v, rest) else .error .lengthOperand
  | _ => .error .incomplete

/-- The operands of BYTE_IN: a two-byte length operand 0x0000 (R105). -/
def decodeByteIn : List Byte → Except BridgeReject (Instr × List Byte)
  | l :: h :: rest => if l = 0x00#8 ∧ h = 0x00#8 then .ok (.byteIn, rest) else .error .lengthOperand
  | _ => .error .incomplete

/-- The operand of BIT_IN: a one-byte length operand 0x00 (R106). -/
def decodeBitIn : List Byte → Except BridgeReject (Instr × List Byte)
  | l :: rest => if l = 0x00#8 then .ok (.bitIn, rest) else .error .lengthOperand
  | _ => .error .incomplete

/-- The operands of BIT_OUT: a one-byte length operand 0x00, then the data byte (R107). -/
def decodeBitOut : List Byte → Except BridgeReject (Instr × List Byte)
  | l :: b :: rest => if l = 0x00#8 then .ok (.bitOut b, rest) else .error .lengthOperand
  | _ => .error .incomplete

/-- The operands of SET_DIV: low byte, then high byte (R109). -/
def decodeSetDiv : List Byte → Except BridgeReject (Instr × List Byte)
  | l :: h :: rest => .ok (.setDiv l h, rest)
  | _ => .error .incomplete

/-- The first command of a stream and the bytes after it: the opcode byte is looked up in R100 and the operands
follow (R100 to R109, R112). -/
def decodeBridge : List Byte → Except BridgeReject (Instr × List Byte)
  | [] => .error .empty
  | op :: rest =>
    if op = 0x80#8 then decodeGpio rest
    else if op = 0x11#8 then decodeByteOut rest
    else if op = 0x20#8 then decodeByteIn rest
    else if op = 0x22#8 then decodeBitIn rest
    else if op = 0x13#8 then decodeBitOut rest
    else if op = 0x86#8 then decodeSetDiv rest
    else if op = 0x8A#8 then .ok (.clkNoDiv5, rest)
    else if op = 0x97#8 then .ok (.clkNoAdapt, rest)
    else if op = 0x8C#8 then .ok (.clkPhase, rest)
    else if op = 0x85#8 then .ok (.loopOff, rest)
    else if op = 0x87#8 then .ok (.sendNow, rest)
    else if op = 0xAA#8 then .ok (.sync1, rest)
    else if op = 0xAB#8 then .ok (.sync2, rest)
    else .error .undefinedOpcode

/-- All the commands of a stream, at most `fuel` of them; a stream of `n` bytes needs no more than `n` (R100). -/
def decodeCommands (fuel : Nat) (bs : List Byte) : Option (List Instr) :=
  match fuel, bs with
  | _, [] => some []
  | 0, _ :: _ => none
  | k + 1, b :: bs' =>
    match decodeBridge (b :: bs') with
    | .ok (i, rest) => (decodeCommands k rest).map (i :: ·)
    | .error _ => none

/-- The commands of a whole burst (R100). -/
def decodeBurst (bs : List Byte) : Option (List Instr) := decodeCommands bs.length bs

/-! ## Encoders -/

/-- The words of an instruction: a host word, the bytes of a bridge command, or none for a primitive, which is
identified by the SEQ state that runs it (R90). -/
inductive Encoding where
  | hostWord (w : HostWord)
  | commandBytes (bs : List Byte)
  | sequencerState
deriving DecidableEq, Repr

/-- The host word of the fields of R92, `RSV` = 0. -/
def hostWordOf (opc : BitVec 4) (cnt reg arg : Byte) : HostWord := opc ++ 0#4 ++ cnt ++ reg ++ arg

/-- The fields of a host operation laid out as R92 and R94 say. -/
def encodeHost : Instr → Option HostWord
  | .openSession a => some (hostWordOf 0x1#4 0x00#8 0x00#8 (a.setWidth 8))
  | .closeSession => some (hostWordOf 0x2#4 0x00#8 0x00#8 0x00#8)
  | .setAddr a => some (hostWordOf 0x3#4 0x00#8 0x00#8 (a.setWidth 8))
  | .rdReg r n => some (hostWordOf 0x4#4 n r 0x00#8)
  | .wrReg r v => some (hostWordOf 0x5#4 0x00#8 r v)
  | .start => none
  | .stop => none
  | .wrByte _ => none
  | .rdByte _ => none
  | .poll _ => none
  | .gpio _ _ => none
  | .byteOut _ => none
  | .byteIn => none
  | .bitIn => none
  | .bitOut _ => none
  | .clkNoDiv5 => none
  | .clkNoAdapt => none
  | .clkPhase => none
  | .loopOff => none
  | .sendNow => none
  | .setDiv _ _ => none
  | .sync1 => none
  | .sync2 => none

/-- The bytes of a bridge command as the block emits it (R101, R104 to R109, R112); none at the other levels. -/
def encodeBridge : Instr → Option (List Byte)
  | .openSession _ => none
  | .closeSession => none
  | .setAddr _ => none
  | .rdReg _ _ => none
  | .wrReg _ _ => none
  | .start => none
  | .stop => none
  | .wrByte _ => none
  | .rdByte _ => none
  | .poll _ => none
  | .gpio d v => some [0x80#8, d, v]
  | .byteOut v => some [0x11#8, 0x00#8, 0x00#8, v]
  | .byteIn => some [0x20#8, 0x00#8, 0x00#8]
  | .bitIn => some [0x22#8, 0x00#8]
  | .bitOut b => some [0x13#8, 0x00#8, b]
  | .clkNoDiv5 => some [0x8A#8]
  | .clkNoAdapt => some [0x97#8]
  | .clkPhase => some [0x8C#8]
  | .loopOff => some [0x85#8]
  | .sendNow => some [0x87#8]
  | .setDiv l h => some [0x86#8, l, h]
  | .sync1 => some [0xAA#8]
  | .sync2 => some [0xAB#8]

/-- The encoding of an instruction at its level (R90). -/
def encode (i : Instr) : Encoding :=
  match encodeHost i, encodeBridge i with
  | some w, _ => .hostWord w
  | none, some bs => .commandBytes bs
  | none, none => .sequencerState

/-- The instruction an encoding stands for, read whole: a host word by R94, the bytes of exactly one bridge command
by R100. A SEQ state alone names no operand, so it decodes to none. -/
def decodeEncoding : Encoding → Option Instr
  | .hostWord w =>
    match decodeHost w with
    | .ok i => some i
    | .error _ => none
  | .commandBytes bs =>
    match decodeBridge bs with
    | .ok (i, []) => some i
    | .ok (_, _ :: _) => none
    | .error _ => none
  | .sequencerState => none

/-- The bytes of a stream of commands, each laid out as the block emits it. -/
def encodeCommands : List Instr → List Byte
  | [] => []
  | i :: is => (encodeBridge i).getD [] ++ encodeCommands is

/-! ## The opcode table's numbering -/

/-- The low `8 * n` bits of `w` as `n` bytes, the most significant first: opcode_table.json writes a bridge command
as one number whose leading byte is the opcode, the first byte on the wire. -/
def bytesOfWord (n w : Nat) : List Byte :=
  match n with
  | 0 => []
  | k + 1 => BitVec.ofNat 8 (w / 256 ^ k) :: bytesOfWord k w

/-- Where the words of a row are stored: a 32-bit row that R94 accepts is a host word; any other row is the bytes of
a bridge command; a 32-bit row that is neither is a host word, an illegal one (R96). -/
def tableEncoding (nbits w : Nat) : Encoding :=
  if nbits = 32 then
    match decodeHost (BitVec.ofNat 32 w) with
    | .ok _ => .hostWord (BitVec.ofNat 32 w)
    | .error _ =>
      match decodeEncoding (.commandBytes (bytesOfWord 4 w)) with
      | some _ => .commandBytes (bytesOfWord 4 w)
      | none => .hostWord (BitVec.ofNat 32 w)
  else .commandBytes (bytesOfWord (nbits / 8) w)

/-- The instruction the decoder reads from a row's bits, numbered as opcode_table.json numbers them. -/
def decodeTableWord (nbits w : Nat) : Option Instr := decodeEncoding (tableEncoding nbits w)

end Sys2Proof
end

