-- ==== Sys2Proof/Config.lean ====
section
/-! DEFINITION. Config: the parameters of 00_scope.md R6, the types of the block's interaction with its environment
(R10, R12), and the free values: what the bridge, the peer and the scheduler decide (20_memory.md R66). A free value
is an opaque constant applied to the draw counter of State; nothing constrains it. -/

namespace Sys2Proof

/-! ## Build parameters (R6) -/

/-- NREP_DATA: "one of {1, 6}; default 1" (R6, R151). -/
inductive NRepData where
  | one
  | six
deriving DecidableEq, Repr, Inhabited

/-- The number of triples NREP_DATA stands for. -/
def NRepData.count : NRepData → Nat
  | .one => 1
  | .six => 6

/-- SHORT_READ_POLICY: "one of {STRICT, LENIENT}; default STRICT" (R6, R178). -/
inductive ShortReadPolicy where
  | strict
  | lenient
deriving DecidableEq, Repr, Inhabited

/-- The parameters an instance is built with, fixed before reset is released (R243 (c)). -/
structure BuildParams where
  /-- CLKDIV, the clock divider (R6, R24). -/
  clkdiv : BitVec 16
  /-- NREP_DATA (R6, R151). -/
  nrepData : NRepData
  /-- SHORT_READ_POLICY (R6, R178). -/
  policy : ShortReadPolicy
deriving DecidableEq, Repr, Inhabited

/-! ## Result causes (60_exceptions.md R201) -/

/-- RES_CAUSE. Code 7 is reserved and never produced (R201), so it is no constructor. -/
inductive Cause where
  | none
  | sessionState
  | sync
  | ack
  | length
  | transportUnavailable
  | illegalCmd
deriving DecidableEq, Repr, Inhabited

/-- The 3-bit cause code (R201). -/
def Cause.code : Cause → BitVec 3
  | .none => 0#3
  | .sessionState => 1#3
  | .sync => 2#3
  | .ack => 3#3
  | .length => 4#3
  | .transportUnavailable => 5#3
  | .illegalCmd => 6#3

/-- A cause the unspecified result of LENIENT may carry (R178 step 1, U1): any of R201 but LENGTH, since "under LENIENT
the code is never produced" (R205). -/
inductive LenientCause where
  | none
  | sessionState
  | sync
  | ack
  | transportUnavailable
  | illegalCmd
deriving DecidableEq, Repr, Inhabited

/-- The cause of R201 it stands for. -/
def LenientCause.toCause : LenientCause → Cause
  | .none => .none
  | .sessionState => .sessionState
  | .sync => .sync
  | .ack => .ack
  | .transportUnavailable => .transportUnavailable
  | .illegalCmd => .illegalCmd

/-! ## Control events (40_lifecycle.md R131) -/

/-- The two pin modes of `SetBitMode`: "at least a reset mode and a clocked-shift ("MPSSE") mode" (R131). -/
inductive PinMode where
  | neutral
  | clockedShift
deriving DecidableEq, Repr, Inhabited

/-- The control events, with their arguments (R131). -/
inductive CtrlEvent where
  | acquire (deviceId : Nat)
  | reset
  | setLatency (ms : Nat)
  | setUsb (inSize outSize : Nat)
  | setTimeouts (readMs writeMs : Nat)
  | setBitMode (m : PinMode) (mask mode : Byte)
  | release
deriving DecidableEq, Repr, Inhabited

/-- The event code of R131. -/
def CtrlEvent.code : CtrlEvent → Nat
  | .acquire _ => 0
  | .reset => 1
  | .setLatency _ => 2
  | .setUsb _ _ => 3
  | .setTimeouts _ _ => 4
  | .setBitMode _ _ _ => 5
  | .release => 6

/-! ## The history (00_scope.md R10) -/

/-- An event in the model's history: one use of an interaction primitive (R10). -/
inductive Event where
  /-- `Ctrl(e)`. -/
  | ctrl (e : CtrlEvent)
  /-- `TxWrite(bs)`: one burst. -/
  | txWrite (bs : List Byte)
  /-- `RxCount()`, with the number sampled. -/
  | rxCount (n : Nat)
  /-- `RxRead(|bs|)`, with the bytes returned. -/
  | rxRead (bs : List Byte)
  /-- `Result(ok, cause, data)`, as the result word and the data bytes that follow it (R97). -/
  | result (rsp : HostWord) (data : List Byte)
deriving DecidableEq, Repr, Inhabited

/-- The burst of a `TxWrite`. -/
def Event.burst? : Event → Option (List Byte)
  | .ctrl _ => none
  | .txWrite bs => some bs
  | .rxCount _ => none
  | .rxRead _ => none
  | .result _ _ => none

/-- The control event of a `Ctrl`. -/
def Event.ctrl? : Event → Option CtrlEvent
  | .ctrl e => some e
  | .txWrite _ => none
  | .rxCount _ => none
  | .rxRead _ => none
  | .result _ _ => none

/-- The result word and data of a `Result`. -/
def Event.result? : Event → Option (HostWord × List Byte)
  | .ctrl _ => none
  | .txWrite _ => none
  | .rxCount _ => none
  | .rxRead _ => none
  | .result rsp data => some (rsp, data)

/-! ## The bridge (10_state.md R38) -/

/-- The bridge's configuration: "latency timer, transfer sizes, timeouts, bit mode, clock settings, divider,
loopback" (R38 (c)). -/
structure Settings where
  latencyMs : Nat
  usbIn : Nat
  usbOut : Nat
  rdTimeoutMs : Nat
  wrTimeoutMs : Nat
  mode : PinMode
  divider : BitVec 16
  /-- 0x8A has been run (R108). -/
  noDiv5 : Bool
  /-- 0x97 has been run (R108). -/
  noAdapt : Bool
  /-- 0x8C has been run; its meaning is disputed (C3) and none is attached (R108). -/
  phase : Bool
  /-- 0x85 has been run; its meaning is disputed (C3) and none is attached (R108). -/
  loopOff : Bool
deriving DecidableEq, Repr, Inhabited

/-- The bridge, an agent of the environment (R12, R38). -/
structure Bridge where
  /-- Whether this block's session holds the bridge (R38 (b)). -/
  held : Bool
  /-- The other sessions that hold it, each by a number (R38 (b)). The exclusive hold, "only one Session may hold a given
  physical device handle at a time", is the environment's duty (R221, R255), so the type does not enforce it. -/
  others : List Nat
  /-- Its configuration (R38 (c)). -/
  settings : Settings
  /-- Direction of the low GPIO bank as last commanded: bit 0 SCL, bit 1 SDA, 1 = output (R38 (d), R102). -/
  dir : Byte
  /-- Level of the low GPIO bank as last commanded (R38 (d), R229). -/
  val : Byte
  /-- The level the bridge last gave SCL: what GPIO set, or low after a shift command, until the next GPIO (R229). -/
  scl : Bool
  /-- Bytes of TX taken and not yet run (R62, U18). -/
  cmdq : List Byte
  /-- Response bytes produced and not yet visible (R82). -/
  resp : List Byte
  /-- RXQ, the queue of visible response bytes, oldest first (R38 (a), R63). -/
  rxq : List Byte
deriving DecidableEq, Repr, Inhabited

/-- One event on the bus, as the peer sees it (42_transactions.md R177). -/
inductive BusEvent where
  /-- `S` or `Sr`: SDA falls while SCL is high. -/
  | start
  /-- `P`: SDA rises while SCL is high. -/
  | stop
  /-- Eight bits the master sends, most significant first. -/
  | byteOut (v : Byte)
  /-- The acknowledge slot after a master byte; `high` is the level of SDA sampled (1 = nak). -/
  | bitIn (high : Bool)
  /-- Eight bits the peer sends. -/
  | byteIn (v : Byte)
  /-- The acknowledge slot after a peer byte; `high` is the bit the master shifts out (1 = nak). -/
  | bitOut (high : Bool)
deriving DecidableEq, Repr, Inhabited

/-! ## The scheduler and the environment's inputs (R12, R64, R66) -/

/-- What the environment does next. -/
inductive EnvEvent where
  /-- The controller moves. -/
  | yield
  /-- The bridge runs the next command of its stream (R223). -/
  | run
  /-- Responses already produced become visible (R228: without SEND_NOW, by the latency timer, R82). -/
  | flush
  /-- Bytes appear in RXQ that no command run by the model accounts for (R64, R66, U9). -/
  | arrive (bs : List Byte)
  /-- The host presents a command word (R91). -/
  | present (w : HostWord)
  /-- Another session uses the bridge, acquires it or releases it, and leaves it as `b`. While this session holds the
  bridge this is the failure of the environment's duty that R255 describes (R221, R38 (b)). -/
  | otherSession (b : Bridge)
  /-- The reset input is asserted (R240). -/
  | reset
deriving DecidableEq, Repr, Inhabited

/-- Which agent moves next (R36: the scheduler's choice). -/
inductive Turn where
  | controller
  | bridge
  | env
deriving DecidableEq, Repr, Inhabited

/-- The environment's inputs that are already decided, each list read from its front. A list that has run out is
continued by the free values below. -/
structure Inputs where
  /-- Scheduling events. -/
  events : List EnvEvent
  /-- Replies to `Acquire`, true = granted (R131). -/
  grants : List Bool
  /-- Levels of a released SDA line at the sampling clocks, true = high (R224, R225). -/
  levels : List Bool
deriving DecidableEq, Repr, Inhabited

/-! ## Constants the spec fixes -/

namespace Config

/-- NREP_COND (R6, R151). -/
def nrepCond : Nat := 6

/-- VAL0 (R6, D4). -/
def val0 : Byte := 0x00#8

/-- INIT_DIR (R6, D7). -/
def initDir : Byte := 0x00#8

/-- INIT_VAL (R6, D7). -/
def initVal : Byte := 0x00#8

/-- N_ACK (R6). -/
def nAck : Nat := 3

/-- POLL_MAX (R6, R190). -/
def pollMax : Nat := 1000000

/-- The least CB_DEPTH: `162 + 3·(7 + 6·NREP_DATA) + 255·(7 + 9·NREP_DATA)` (R6). -/
def cbDepth (n : NRepData) : Nat := 162 + 3 * (7 + 6 * n.count) + 255 * (7 + 9 * n.count)

/-- The default instance: CLKDIV = 0x005F, NREP_DATA = 1, STRICT (R6). -/
def defaultBuild : BuildParams := ⟨0x005F#16, .one, .strict⟩

/-! ## OPEN parameters: the values given to the bridge's configuration calls (R6, D16, U12) -/

/-- DEVICE_ID. -/
opaque deviceId : Nat

/-- LAT_MS. -/
opaque latMs : Nat

/-- USB_IN. -/
opaque usbIn : Nat

/-- USB_OUT. -/
opaque usbOut : Nat

/-- RD_TO_MS. -/
opaque rdToMs : Nat

/-- WR_TO_MS. -/
opaque wrToMs : Nat

/-- BM_RESET and BM_MPSSE: the mask given with each mode. -/
opaque bitModeMask : PinMode → Byte

/-- BM_RESET and BM_MPSSE: the mode byte given with each mode. -/
opaque bitModeByte : PinMode → Byte

/-! ## Free values -/

/-- The next environment event once `Inputs.events` has run out (R36, R64, U16). -/
opaque envEvent : Nat → EnvEvent

/-- The reply to `Acquire` once `Inputs.grants` has run out (R131, U17). -/
opaque acquireGranted : Nat → Bool

/-- The level of a released SDA line once `Inputs.levels` has run out (R224, R225, U15). -/
opaque sdaLevel : Nat → Bool

/-- Bits 7 to 1 of an ack status byte (R113, R224, U3). -/
opaque statusBits : Nat → BitVec 7

/-- What a sentinel produces outside the clocked-shift mode (R226 covers that mode only, R66). -/
opaque strayReply : Nat → List Byte

/-- The bridge's configuration after `Ctrl(Reset)` (R5 (a), R131). -/
opaque settingsAfterReset : Nat → Settings

/-- The bridge after the block is reset in mid-operation (R242, U6). -/
opaque bridgeAfterAbandon : Nat → Bridge

/-- The bridge after a byte that is no command of R100 (R114, U9). -/
opaque bridgeAfterUndefined : Nat → Bridge

/-- `OK` of the result R178 leaves unspecified under LENIENT (U1). -/
opaque lenientOk : Nat → Bool

/-- `CAUSE` of that result when it is a failure (U1): never LENGTH (R205). -/
opaque lenientCause : Nat → LenientCause

/-- The data of that result when it is a successful read (U1). -/
opaque lenientData : Nat → List Byte

end Config

end Sys2Proof
end

