-- ==== Sys2Proof/Machine/State.lean ====
section
/-! DEFINITION. State: every piece of state 10_state.md gives the block (R20 to R34), the state of the environment the
block can observe (R38), the histories, and the model's own fields; the reset state (R40, R240). -/

namespace Sys2Proof.Machine

/-- SESS (R21). -/
inductive Session where
  | closed
  | opened
deriving DecidableEq, Repr

/-- OP, the host operation in progress (R27). -/
inductive HostOp where
  | openOp
  | closeOp
  | setAddrOp
  | rdRegOp
  | wrRegOp
deriving DecidableEq, Repr

/-- The `OPC` of a host operation (R94). -/
def HostOp.opc : HostOp → BitVec 4
  | .openOp => 0x1#4
  | .closeOp => 0x2#4
  | .setAddrOp => 0x3#4
  | .rdRegOp => 0x4#4
  | .wrRegOp => 0x5#4

/-- The positions inside `T_BUILD`: `CbClear()`, then one position for each primitive of the plan (R171, R175). -/
inductive BuildPos where
  /-- `CbClear()`. -/
  | clear
  /-- The first START. -/
  | start
  /-- `WRBYTE(AddrByte(ADDR, 0))`, ack point 0. -/
  | wrAddrW
  /-- `WRBYTE(r)`, ack point 1. -/
  | wrRegAddr
  /-- `WRBYTE(v)` of WRREG, ack point 2. -/
  | wrVal
  /-- The repeated START of RDREG. -/
  | start2
  /-- `WRBYTE(AddrByte(ADDR, 1))` of RDREG, ack point 2. -/
  | wrAddrR
  /-- The read loop of RDREG, at index IDX. -/
  | rdLoop
  /-- STOP. -/
  | stop
deriving DecidableEq, Repr

/-- SEQ, the position of the sequencer (R28). A row of R28's table with several events of the bridge is one position
for each event (D1); DECODE is part of the step that accepts a word (R93). -/
inductive Seq where
  | idle
  | oCheck
  /-- `O_ACQ`: `Ctrl(Acquire)` and its reply. -/
  | oAcq
  /-- `O_ACQ`: `Fail(TRANSPORT_UNAVAILABLE)` of a refused `Acquire`. -/
  | oRefused
  | oRst
  /-- `O_DRAIN`: `q0 <- RxCount()`. -/
  | oDrain
  /-- `O_DRAIN`: `Poll(q0)`. -/
  | oDrainPoll
  /-- `O_CFG`: `Ctrl(SetLatency)`. -/
  | oCfgLatency
  /-- `O_CFG`: `Ctrl(SetUsb)`. -/
  | oCfgUsb
  /-- `O_CFG`: `Ctrl(SetTimeouts)`. -/
  | oCfgTimeouts
  /-- `O_MODE`: `Ctrl(SetBitMode(BM_RESET))`. -/
  | oModeReset
  /-- `O_MODE`: `Ctrl(SetBitMode(BM_MPSSE))`. -/
  | oModeShift
  /-- `O_SYNC1`: `TxWrite([0xAA])`. -/
  | oSync1Tx
  /-- `O_SYNC1`: `Poll(2)`. -/
  | oSync1Poll
  /-- `O_SYNC1`: the comparison with `[0xFA, 0xAA]`. -/
  | oSync1Cmp
  /-- `O_SYNC2`: `TxWrite([0xAB])`. -/
  | oSync2Tx
  /-- `O_SYNC2`: `Poll(2)`. -/
  | oSync2Poll
  /-- `O_SYNC2`: the comparison with `[0xFA, 0xAB]`. -/
  | oSync2Cmp
  /-- `O_ABORT`: `Ctrl(Release)`. -/
  | oAbort
  /-- `O_ABORT`: `Fail(SYNC)`. -/
  | oFail
  | oClk
  | oDiv
  | oLb
  | oDone
  /-- `C_REL`: the check of SESS, and `Ctrl(Release)`. -/
  | cRel
  /-- `C_REL`: `SESS <- Closed; Result(true)`. -/
  | cDone
  | aSet
  | tCheck
  | tBuild (p : BuildPos)
  | tTx
  | tPoll
  | tValid
deriving DecidableEq, Repr

/-- The position inside `Poll` (R190). -/
inductive PollPos where
  /-- No poll has started. -/
  | idle
  /-- In the loop, before a sample. -/
  | sample
  /-- After the loop, before the sample `m`. -/
  | count
  /-- Before the one retrieval `RxRead(m)`. -/
  | retrieve (m : Nat)
deriving DecidableEq, Repr

/-- Why the machine stops with a fault. -/
inductive Fault where
  /-- Raised by the meaning of a host operation in progress when SEQ holds no state of its micro-program (R28): the
  spec gives no next step. No run reaches it. Safe. -/
  | noMicroStep
deriving DecidableEq, Repr

/-- Why the machine refuses an instruction. -/
inductive Refusal where
  /-- Raised by the dispatcher for an instruction that has no meaning yet; no arm does. Safe. -/
  | notModelled (mnemonic : String)
deriving DecidableEq, Repr

/-- The state of the block, of the environment it can observe, and the model's own fields. -/
structure State where
  /-- The build parameters (R6), never written (R36). -/
  cfg : BuildParams
  /-- SESS (R21). -/
  sess : Session
  /-- ADDR (R23). -/
  addr : BitVec 7
  /-- DIV, hardwired to CLKDIV (R24). -/
  div : BitVec 16
  /-- HANDLE, the handle bit R22 lets a model keep. -/
  handle : Bool
  /-- CB (R25). -/
  cb : List Byte
  /-- RXBUF (R26). -/
  rxbuf : List Byte
  /-- OP (R27). -/
  op : HostOp
  /-- A_ADDR (R27). -/
  aAddr : BitVec 7
  /-- A_REG (R27). -/
  aReg : Byte
  /-- A_VAL (R27). -/
  aVal : Byte
  /-- A_CNT (R27). -/
  aCnt : Byte
  /-- SEQ (R28). -/
  seq : Seq
  /-- IDX (R29). -/
  idx : Byte
  /-- POLLCNT (R30). -/
  pollcnt : BitVec 20
  /-- EXPECT, kept a natural number (R31). -/
  expect : Nat
  /-- BUSY (R32). -/
  busy : Bool
  /-- The model's own: the position inside the poll in progress (R190). -/
  pollAt : PollPos
  /-- NAK[0] (R33). -/
  nak0 : Bool
  /-- NAK[1] (R33). -/
  nak1 : Bool
  /-- NAK[2] (R33). -/
  nak2 : Bool
  /-- RES_OK (R34). -/
  resOk : Bool
  /-- RES_CAUSE (R34). -/
  resCause : Cause
  /-- The `OPC` field of the result word (R97). -/
  resOpc : BitVec 4
  /-- RES_LEN (R34). -/
  resLen : Byte
  /-- RES_DATA (R34). -/
  resData : List Byte
  /-- Whether a result has been presented to the host (R34, R40). -/
  resValid : Bool
  /-- The word the host holds at the command port (R91). -/
  port : Option HostWord
  /-- The bridge (R38). -/
  bridge : Bridge
  /-- The model's own: which agent moves next (R36). -/
  turn : Turn
  /-- The model's own: environment inputs already decided (R66). -/
  inputs : Inputs
  /-- The model's own: how many free values have been drawn. -/
  draws : Nat
  /-- The history of interaction events, oldest first (R10); TXH and CTRLH are read off it (R38). -/
  hist : List Event
  /-- The bus events so far (R161, R177). -/
  bus : List BusEvent
deriving DecidableEq, Repr

/-- CBLEN, the length of CB (R25). -/
def State.cblen (s : State) : Nat := s.cb.length

/-- RXLEN, the length of RXBUF (R26). -/
def State.rxlen (s : State) : Nat := s.rxbuf.length

/-- TXH, the bursts sent so far (R38). -/
def State.txh (s : State) : List (List Byte) := s.hist.filterMap Event.burst?

/-- CTRLH, the control events sent so far (R38). -/
def State.ctrlh (s : State) : List CtrlEvent := s.hist.filterMap Event.ctrl?

/-- The results delivered so far: result word and data bytes (R91, R97). -/
def State.resh (s : State) : List (HostWord × List Byte) := s.hist.filterMap Event.result?

/-- The bridge before any OPEN. R40 leaves it unspecified: every value here is the model's (log 3). -/
def bridgeAtPowerUp : Bridge where
  held := false
  others := []
  settings := ⟨0, 0, 0, 0, 0, .neutral, 0x0000#16, false, false, false, false⟩
  dir := 0x00#8
  val := 0x00#8
  scl := true
  cmdq := []
  resp := []
  rxq := []

/-- The machine right after reset (R40, R240). DESIGN CHOICE (log 2): the registers R40 calls unspecified hold 0,
and OP holds OPEN. The build is the default one (log 8). -/
def State.reset : State where
  cfg := Config.defaultBuild
  sess := .closed
  addr := 0#7
  div := Config.defaultBuild.clkdiv
  handle := false
  cb := []
  rxbuf := []
  op := .openOp
  aAddr := 0#7
  aReg := 0x00#8
  aVal := 0x00#8
  aCnt := 0x00#8
  seq := .idle
  idx := 0x00#8
  pollcnt := 0#20
  expect := 0
  busy := false
  pollAt := .idle
  nak0 := false
  nak1 := false
  nak2 := false
  resOk := false
  resCause := .none
  resOpc := 0x0#4
  resLen := 0x00#8
  resData := []
  resValid := false
  port := none
  bridge := bridgeAtPowerUp
  turn := .controller
  inputs := ⟨[], [], []⟩
  draws := 0
  hist := []
  bus := []

end Sys2Proof.Machine
end

