-- ==== Sys2Proof/Machine/Flags.lean ====
section
/-! DEFINITION. Flags: the acknowledgement flags (10_state.md R33), the length check (42_transactions.md R178 step 1)
and the result word (30_encoding.md R97). -/

namespace Sys2Proof.Machine

/-- `RXBUF[k][0]`, the acknowledgement bit of response byte `k`: 0 = ack, 1 = nak (R33, R113). -/
def nakBit (rxbuf : List Byte) (k : Nat) : Bool := (rxbuf.getD k 0x00#8).getLsbD 0

/-- `NAK[0] | NAK[1] | NAK[2]` (R178 step 3). -/
def anyNak (rxbuf : List Byte) : Bool := nakBit rxbuf 0 || nakBit rxbuf 1 || nakBit rxbuf 2

/-- What step 1 of the validator decides (R178). -/
inductive LengthCheck where
  /-- Go on to the acknowledgement bits. -/
  | usable
  /-- `Fail(LENGTH)`. -/
  | wrong
  /-- LENIENT: the result is unspecified. -/
  | unspecified
deriving DecidableEq, Repr

/-- Step 1 of the validator (R178). A retrieval of the expected length is usable, since EXPECT is 3 to 258 whenever a
transaction validates (R31); the second test covers it too, so that the acknowledgement bits are read only where they
exist. -/
def lengthCheck (policy : ShortReadPolicy) (expect rxlen : Nat) : LengthCheck :=
  if rxlen ≠ expect ∧ policy = .strict then .wrong
  else if rxlen < 3 ∨ 255 < rxlen - 3 then .unspecified
  else .usable

/-- The result word RSP: OK in bit 0, CAUSE in 3:1, OPC in 7:4, LEN in 15:8, 0 above (R97). -/
def rspWord (ok : Bool) (cause : Cause) (opc : BitVec 4) (len : Byte) : HostWord :=
  0#16 ++ len ++ opc ++ cause.code ++ BitVec.ofBool ok

/-- The result word of the result registers (R97). -/
def State.rsp (s : State) : HostWord := rspWord s.resOk s.resCause s.resOpc s.resLen

end Sys2Proof.Machine
end

