-- ==== Sys2Proof/Machine/Operands.lean ====
section
/-! DEFINITION. Operands: operand assembly and the fixed byte sequences of the block (30_encoding.md R101, R110, R111,
R116; 41_primitives.md R151 to R157; 40_lifecycle.md R133 steps 8 to 12), and a GPIO triple read as line levels
(41_primitives.md R161). -/

namespace Sys2Proof.Machine

/-- `AddrByte(a, d) = zext_8(a) << 1 | d` with `d` the direction bit, read = 1, write = 0 (R110). -/
def addrByte (a : BitVec 7) (d : BitVec 1) : Byte := (a.setWidth 8 <<< 1) ||| d.setWidth 8

/-- `AckByte(w)`: 0x00 = ack if wantAck, 0xFF = nak if not (R111). -/
def ackByte (w : Bool) : Byte := if w then 0x00#8 else 0xFF#8

/-- wantAck of the read byte at index `i` of `n`: `i != n - 1` over the integers (R111, R171). -/
def wantAck (i n : Byte) : Bool := i.toNat + 1 != n.toNat

/-- `GPIO(d, VAL0) = [0x80, d, VAL0]` (R101, R103). -/
def gpioTriple (d : Byte) : List Byte := [0x80#8, d, Config.val0]

/-- `PH(d)`, one phase: NREP_COND equal triples (R151). -/
def phase (d : Byte) : List Byte := repeatBytes Config.nrepCond (gpioTriple d)

/-- `ST(d)`, one step inside a byte primitive: NREP_DATA equal triples (R151). -/
def gpioStep (n : NRepData) (d : Byte) : List Byte := repeatBytes n.count (gpioTriple d)

/-- The bytes of START (R153). -/
def startBytes : List Byte := phase 0x00#8 ++ phase 0x02#8 ++ phase 0x03#8

/-- The bytes of STOP (R154). -/
def stopBytes : List Byte := phase 0x03#8 ++ phase 0x02#8 ++ phase 0x00#8

/-- The bytes of WRBYTE(v) (R155). -/
def wrByteBytes (n : NRepData) (v : Byte) : List Byte :=
  gpioStep n 0x03#8 ++ [0x11#8, 0x00#8, 0x00#8, v] ++ gpioStep n 0x01#8 ++ [0x22#8, 0x00#8] ++ [0x87#8]

/-- The bytes of RDBYTE(w) (R157). -/
def rdByteBytes (n : NRepData) (w : Bool) : List Byte :=
  gpioStep n 0x01#8 ++ [0x20#8, 0x00#8, 0x00#8] ++ gpioStep n 0x03#8 ++ [0x13#8, 0x00#8, ackByte w] ++
    gpioStep n 0x01#8 ++ [0x87#8]

/-- The first sentinel's burst (R133 step 8). -/
def sync1Burst : List Byte := [0xAA#8]

/-- The first sentinel's echo (R112). -/
def sync1Echo : List Byte := [0xFA#8, 0xAA#8]

/-- The second sentinel's burst (R133 step 9). -/
def sync2Burst : List Byte := [0xAB#8]

/-- The second sentinel's echo (R112). -/
def sync2Echo : List Byte := [0xFA#8, 0xAB#8]

/-- The clock configuration burst (R133 step 10). -/
def clkBurst : List Byte := [0x8A#8, 0x97#8, 0x8C#8]

/-- The divider burst: `GPIO(INIT_DIR, INIT_VAL)`, then 0x86 with the low byte before the high byte (R133 step 11,
R109). -/
def divBurst (div : BitVec 16) : List Byte :=
  [0x80#8, Config.initDir, Config.initVal] ++ [0x86#8, div.extractLsb' 0 8, div.extractLsb' 8 8]

/-- The last burst of OPEN (R133 step 12). -/
def loopBurst : List Byte := [0x85#8]

/-- The level a GPIO bank gives SCL: released (high) when bit 0 of the direction is 0, else bit 0 of the value
(R161). -/
def sclHigh (d v : Byte) : Bool := !d.getLsbD 0 || v.getLsbD 0

/-- The level a GPIO bank gives SDA: released (high) when bit 1 of the direction is 0, else bit 1 of the value
(R161). -/
def sdaHigh (d v : Byte) : Bool := !d.getLsbD 1 || v.getLsbD 1

/-- The bus event of a change of the lines from levels `scl`, `sda` to `scl'`, `sda'`: a start condition is SDA
falling, a stop condition SDA rising, while SCL is high before and after (R153, R154, R161). -/
def busEventOf (scl sda scl' sda' : Bool) : List BusEvent :=
  if scl && scl' then
    if sda && !sda' then [.start]
    else if !sda && sda' then [.stop]
    else []
  else []

end Sys2Proof.Machine
end

