-- ==== Sys2Proof/Machine/Ops.lean ====
section
/-! DEFINITION. Ops: the named operations of 00_scope.md R10 (CbClear, CbAppend, Ctrl, TxWrite, RxCount, RxRead,
Result, Fail), acceptance of a host word (30_encoding.md R93), the reset input (70_reset_and_hazards.md R240 to R242),
and the operations of the bridge (60_exceptions.md R221 to R229).

TAKING AN EXCEPTION. The block has no trap (60_exceptions.md R200): its one form of exception is a failure, the shared
operation `fail`, which reports a cause through the result registers and returns the sequencer to IDLE (R210). No
state is saved, so there is no return from it (R211). -/

namespace Sys2Proof.Machine

/-- The outcome of a step of this machine. -/
abbrev StepOutcome := Host.Outcome State Fault Refusal

/-- Apply `f` to the next state of an outcome; a fault or a refusal stays. -/
def mapNext (f : State → State) : StepOutcome → StepOutcome
  | .next s => .next (f s)
  | .fault r => .fault r
  | .refused r => .refused r

/-- Put an event in the history (R10). -/
def logEvent (e : Event) (s : State) : State := { s with hist := s.hist ++ [e] }

/-! ## Sequencer and command buffer -/

/-- `SEQ <- q` (R9, R28). -/
def moveTo (q : Seq) (s : State) : State := { s with seq := q }

/-- `CbClear()` (R10, R61). -/
def cbClear (s : State) : State := { s with cb := [] }

/-- `CbAppend(bs)` (R10, R61, R150). -/
def cbAppend (bs : List Byte) (s : State) : State := { s with cb := s.cb ++ bs }

/-! ## Results and failures -/

/-- `Result(ok, cause, data)`: deliver the result and end the operation (R10, R97, R210). -/
def report (ok : Bool) (cause : Cause) (opc : BitVec 4) (data : List Byte) (s : State) : State :=
  { s with
    resOk := ok
    resCause := cause
    resOpc := opc
    resLen := BitVec.ofNat 8 data.length
    resData := data
    resValid := true
    hist := s.hist ++ [.result (rspWord ok cause opc (BitVec.ofNat 8 data.length)) data]
    busy := false
    seq := .idle }

/-- `Result(true, NONE, data)` of the operation in progress. -/
def succeed (data : List Byte) (s : State) : State := report true .none s.op.opc data s

/-- `Fail(cause)` of the operation in progress: `Result(false, cause, [])` (R10, R210). -/
def fail (cause : Cause) (s : State) : State := report false cause s.op.opc [] s

/-- `Fail(ILLEGAL_CMD)` of a word that selects no row; the result answers the word's own OPC (R96, R97). -/
def failIllegal (w : HostWord) (s : State) : State := report false .illegalCmd (hostOpc w) [] s

/-! ## Acceptance -/

/-- The first state of an operation's micro-program (R28). -/
def firstState : HostOp → Seq
  | .openOp => .oCheck
  | .closeOp => .cRel
  | .setAddrOp => .aSet
  | .rdRegOp => .tCheck
  | .wrRegOp => .tCheck

/-- Acceptance of the word `w` of the operation `o`: BUSY is set, the latches are loaded from the word's fields, SEQ
goes to the operation's first state (R93). -/
def accept (o : HostOp) (w : HostWord) (s : State) : State :=
  { s with
    busy := true
    op := o
    aAddr := hostAddr w
    aReg := hostReg w
    aVal := hostArg w
    aCnt := hostCnt w
    seq := firstState o }

/-- The operation in progress, from OP and the operand latches (R27). -/
def inProgress (s : State) : Instr :=
  match s.op with
  | .openOp => .openSession s.aAddr
  | .closeOp => .closeSession
  | .setAddrOp => .setAddr s.aAddr
  | .rdRegOp => .rdReg s.aReg s.aCnt
  | .wrRegOp => .wrReg s.aReg s.aVal

/-- A host operation. While BUSY = 0 its word `w` is accepted (R91, R93). While BUSY = 1, the operation in progress
runs the action of its SEQ state; the word of any other operation waits at the port and nothing changes (R32, R91). -/
def hostOperation (i : Instr) (o : HostOp) (w : HostWord) (advance : State → StepOutcome) (s : State) : StepOutcome :=
  if s.busy then
    if inProgress s = i then advance s else .next s
  else .next (accept o w s)

/-! ## Control events -/

/-- The effect of a control event on the bridge: the setting it names, and nothing else (R131, R138). What `Reset`
leaves in the configuration is a free value (log 14); whether `Acquire` is granted is its reply, not its effect. -/
def bridgeAfterCtrl (e : CtrlEvent) (k : Nat) (b : Bridge) : Bridge :=
  match e with
  | .acquire _ => b
  | .reset => { b with settings := Config.settingsAfterReset k }
  | .setLatency ms => { b with settings := { b.settings with latencyMs := ms } }
  | .setUsb i o => { b with settings := { b.settings with usbIn := i, usbOut := o } }
  | .setTimeouts r w => { b with settings := { b.settings with rdTimeoutMs := r, wrTimeoutMs := w } }
  | .setBitMode m _ _ => { b with settings := { b.settings with mode := m } }
  | .release => { b with held := false }

/-- How many free values a control event draws. -/
def ctrlDraws : CtrlEvent → Nat
  | .acquire _ => 0
  | .reset => 1
  | .setLatency _ => 0
  | .setUsb _ _ => 0
  | .setTimeouts _ _ => 0
  | .setBitMode _ _ _ => 0
  | .release => 0

/-- `Ctrl(e)`: one sideband event, which completes before the next step (R10, R131). -/
def ctrl (e : CtrlEvent) (s : State) : State :=
  { s with
    hist := s.hist ++ [.ctrl e]
    bridge := bridgeAfterCtrl e s.draws s.bridge
    draws := s.draws + ctrlDraws e }

/-- `SetBitMode` with the parameters of the mode: BM_RESET or BM_MPSSE (R131). -/
def bitModeEvent (m : PinMode) : CtrlEvent := .setBitMode m (Config.bitModeMask m) (Config.bitModeByte m)

/-- The reply to `Acquire`: an input of the environment, true = granted (R131, R207). It is not tied to the holders: that
it is refused while another session holds the bridge is the environment's duty (R220, R221; `ExclusiveHold`). -/
def acquireReply (s : State) : Bool :=
  match s.inputs.grants with
  | g :: _ => g
  | [] => Config.acquireGranted s.draws

/-- The reply has been used. -/
def takeGrant (s : State) : State :=
  match s.inputs.grants with
  | _ :: gs => { s with inputs := { s.inputs with grants := gs } }
  | [] => { s with draws := s.draws + 1 }

/-- The bridge is acquired: HANDLE is set and the bridge is held (R22, R221). -/
def holdBridge (s : State) : State := { s with handle := true, bridge := { s.bridge with held := true } }

/-- `Ctrl(Release)`, which clears HANDLE (R22, R137). -/
def releaseBridge (s : State) : State := { ctrl .release s with handle := false }

/-! ## Streams -/

/-- `TxWrite(bs)`: one burst, taken whole by the bridge (R10, R62). -/
def txWrite (bs : List Byte) (s : State) : State :=
  { s with
    hist := s.hist ++ [.txWrite bs]
    bridge := { s.bridge with cmdq := s.bridge.cmdq ++ bs } }

/-- The number `RxCount()` answers (R10, R38). -/
def rxCount (s : State) : Nat := s.bridge.rxq.length

/-- `RxCount()` as an event: the queue is sampled and nothing else happens (R10). -/
def sampleCount (s : State) : State := logEvent (.rxCount (rxCount s)) s

/-- `RXBUF <- RxRead(m); RXLEN <- m` (R10, R63, R190). DESIGN CHOICE (log 32): if another session has left fewer than
`m` bytes since the sample `m`, which R63 and R190 do not consider, the retrieval does not wait: it returns all that is
queued, and RXLEN is the number of those bytes. -/
def rxRead (m : Nat) (s : State) : State :=
  { s with
    hist := s.hist ++ [.rxRead (s.bridge.rxq.take m)]
    rxbuf := s.bridge.rxq.take m
    bridge := { s.bridge with rxq := s.bridge.rxq.drop m } }

/-! ## Reset input -/

/-- Reset puts every register of the block at its reset value and sends nothing to the bridge (R240, R241). The bridge
is left as it is when no operation is in progress; when one is, what it then holds is a free value (R242, U6). The
build parameters, the host's waiting word, the inputs and the histories are no registers of the block. -/
def resetInput (s : State) : State :=
  { State.reset with
    cfg := s.cfg
    div := s.cfg.clkdiv
    port := s.port
    bridge := if s.busy then Config.bridgeAfterAbandon s.draws else s.bridge
    turn := s.turn
    inputs := s.inputs
    draws := if s.busy then s.draws + 1 else s.draws
    hist := s.hist
    bus := s.bus }

/-! ## Operations of the bridge -/

/-- What another session's use of the bridge leaves: the stream, the queue, the pins, the configuration and the other
holders are whatever `b` says, and nothing of the block changes. While this session holds the bridge the stream and the
queue are so "corrupted without any failure being raised by that fact alone" (R255); that it does not happen then is
the environment's duty, a premise (`ExclusiveHold`; R220, R221). DESIGN CHOICE (log 31): how much may change, and that
this session's own hold ends by its own `Release` only. -/
def otherUse (b : Bridge) (s : State) : State :=
  { s with bridge := { b with held := s.bridge.held } }

/-- Queue response bytes in the bridge's response buffer, in order (R82, R223). -/
def respond (bs : List Byte) (s : State) : State :=
  { s with bridge := { s.bridge with resp := s.bridge.resp ++ bs } }

/-- Make every response byte produced so far visible, in order (R82, R228). -/
def flushResponses (s : State) : State :=
  { s with bridge := { s.bridge with rxq := s.bridge.rxq ++ s.bridge.resp, resp := [] } }

/-- Bytes appear in RXQ (R64). -/
def arriveBytes (bs : List Byte) (s : State) : State :=
  { s with bridge := { s.bridge with rxq := s.bridge.rxq ++ bs } }

/-- Change the bridge's configuration. -/
def setSettings (f : Settings → Settings) (s : State) : State :=
  { s with bridge := { s.bridge with settings := f s.bridge.settings } }

/-- Put events on the bus. -/
def putBus (es : List BusEvent) (s : State) : State := { s with bus := s.bus ++ es }

/-- Set the low GPIO bank: each pin an output at the level of its value bit, or an input (R229), and the start or stop
condition the change makes (R161). -/
def setPins (d v : Byte) (s : State) : State :=
  putBus (busEventOf s.bridge.scl (sdaHigh s.bridge.dir s.bridge.val) (sclHigh d v) (sdaHigh d v))
    { s with bridge := { s.bridge with dir := d, val := v, scl := sclHigh d v } }

/-- SCL returns to low after a shift command (R229). -/
def clockLow (s : State) : State := { s with bridge := { s.bridge with scl := false } }

/-- Whether the bank drives SDA (R102). -/
def drivesSda (s : State) : Bool := s.bridge.dir.getLsbD 1

/-- The level of SDA at a sampling clock: what the bank drives, or, released, what the peer makes of it (R11, R224,
R225). -/
def sdaLevel (s : State) : Bool :=
  if drivesSda s then s.bridge.val.getLsbD 1
  else
    match s.inputs.levels with
    | l :: _ => l
    | [] => Config.sdaLevel s.draws

/-- The level has been used. -/
def takeLevel (s : State) : State :=
  if drivesSda s then s
  else
    match s.inputs.levels with
    | _ :: ls => { s with inputs := { s.inputs with levels := ls } }
    | [] => { s with draws := s.draws + 1 }

/-- `k` sampling clocks: the levels are shifted into `acc` from the right, so that the first of eight ends in bit 7
(R225). -/
def sampleBits (k : Nat) (acc : Byte) (s : State) : Byte × State :=
  match k with
  | 0 => (acc, s)
  | j + 1 => sampleBits j ((acc <<< 1) ||| (BitVec.ofBool (sdaLevel s)).setWidth 8) (takeLevel s)

/-- The ack status byte of a sampled level: the level in bit 0, free values above (R106, R113, R224). -/
def statusByte (k : Nat) (high : Bool) : Byte := Config.statusBits k ++ BitVec.ofBool high

/-- A free value has been drawn. -/
def drawn (s : State) : State := { s with draws := s.draws + 1 }

/-- The bytes a sentinel `x` produces: `[0xFA, x]` in the clocked-shift mode (R226); in another mode a free value
(R66). -/
def echoOf (x : Byte) (s : State) : List Byte :=
  match s.bridge.settings.mode with
  | .clockedShift => [0xFA#8, x]
  | .neutral => Config.strayReply s.draws

/-- How many free values a sentinel draws. -/
def echoDraws (s : State) : Nat :=
  match s.bridge.settings.mode with
  | .clockedShift => 0
  | .neutral => 1

/-- A sentinel's whole effect: its echo and nothing else (R226). -/
def sentinel (x : Byte) (s : State) : State :=
  { respond (echoOf x s) s with draws := s.draws + echoDraws s }

/-- A byte in opcode position that is no command of R100, or a length operand the block never emits: the spec says
nothing of what the bridge does (R114), so all of the bridge is a free value, but for what the block can rely on: the
holders, which no command of the stream changes (R38 (b)), and the bytes already in RXQ (R64). -/
def undefinedCommand (s : State) : State :=
  { s with
    bridge :=
      { Config.bridgeAfterUndefined s.draws with
        held := s.bridge.held
        others := s.bridge.others
        rxq := s.bridge.rxq ++ (Config.bridgeAfterUndefined s.draws).rxq }
    draws := s.draws + 1 }

end Sys2Proof.Machine
end

