-- ==== Sys2Proof/Machine/Bridge.lean ====
section
/-! DEFINITION. The bridge commands (30_encoding.md R100 to R114), with the effects the bridge contract gives them
(60_exceptions.md R223 to R229). -/

namespace Sys2Proof.Machine

/-- GPIO d v: sets the two pins; no response (R101, R227, R229). -/
def execGpio (d v : Byte) (s : State) : StepOutcome := .next (setPins d v s)

/-- BYTE_OUT v: shifts eight bits out, most significant first, and leaves SCL low; no response (R104, R156, R227, R229). -/
def execByteOut (v : Byte) (s : State) : StepOutcome := .next (clockLow (putBus [.byteOut v] s))

/-- BYTE_IN: eight sampling clocks; one response byte, the first sample in bit 7; SCL is left low (R105, R158, R225,
R229). -/
def execByteIn (s : State) : StepOutcome :=
  .next (clockLow (putBus [.byteIn (sampleBits 8 0x00#8 s).1]
    (respond [(sampleBits 8 0x00#8 s).1] (sampleBits 8 0x00#8 s).2)))

/-- BIT_IN: one sampling clock; one response byte, the level of SDA in bit 0; SCL is left low (R106, R156,
R224, R229). -/
def execBitIn (s : State) : StepOutcome :=
  .next (clockLow (drawn (putBus [.bitIn (sdaLevel s)] (respond [statusByte s.draws (sdaLevel s)] (takeLevel s)))))

/-- BIT_OUT b: shifts bit 7 of `b` out and leaves SCL low; no response (R107, R158, R227, R229). -/
def execBitOut (b : Byte) (s : State) : StepOutcome := .next (clockLow (putBus [.bitOut b.msb] s))

/-- CLK_NODIV5: a clock setting; no response (R108, R227). -/
def execClkNoDiv5 (s : State) : StepOutcome := .next (setSettings (fun c => { c with noDiv5 := true }) s)

/-- CLK_NOADAPT: a clock setting; no response (R108, R227). -/
def execClkNoAdapt (s : State) : StepOutcome := .next (setSettings (fun c => { c with noAdapt := true }) s)

/-- CLK_PHASE: a clock setting whose meaning is disputed (C3); no response (R108, R227). -/
def execClkPhase (s : State) : StepOutcome := .next (setSettings (fun c => { c with phase := true }) s)

/-- LOOP_OFF: a setting whose meaning is disputed (C3); no response (R108, R227). -/
def execLoopOff (s : State) : StepOutcome := .next (setSettings (fun c => { c with loopOff := true }) s)

/-- SEND_NOW: "send answers now"; what was produced before it becomes visible (R82, R108, R228). -/
def execSendNow (s : State) : StepOutcome := .next (flushResponses s)

/-- SET_DIV l h: the divider, low byte first; no response (R109, R227). -/
def execSetDiv (l h : Byte) (s : State) : StepOutcome := .next (setSettings (fun c => { c with divider := h ++ l }) s)

/-- SYNC1: echoes `[0xFA, 0xAA]` (R112, R226). -/
def execSync1 (s : State) : StepOutcome := .next (sentinel 0xAA#8 s)

/-- SYNC2: echoes `[0xFA, 0xAB]` (R112, R226). -/
def execSync2 (s : State) : StepOutcome := .next (sentinel 0xAB#8 s)

end Sys2Proof.Machine
end

