-- ==== Sys2Proof/Machine/Lifecycle.lean ====
section
/-! DEFINITION. The Session Lifecycle Manager: OPEN, CLOSE, SETADDR (40_lifecycle.md). -/

namespace Sys2Proof.Machine

/-- Step 1 of OPEN: fails when the session is Open (R132). -/
def openCheck (s : State) : State :=
  match s.sess with
  | .opened => fail .sessionState s
  | .closed => moveTo .oAcq s

/-- Step 2 of OPEN: `Ctrl(Acquire(DEVICE_ID))` and its reply (R133). -/
def openAcquire (s : State) : State :=
  if acquireReply s then moveTo .oRst (holdBridge (takeGrant (ctrl (.acquire Config.deviceId) s)))
  else moveTo .oRefused (takeGrant (ctrl (.acquire Config.deviceId) s))

/-- Step 2 of OPEN, refused: `Fail(TRANSPORT_UNAVAILABLE)` (R133, R207). -/
def openRefused (s : State) : State := fail .transportUnavailable s

/-- Step 4 of OPEN, first half: `q0 <- RxCount()`, the expected number of the drain's poll (R133). -/
def openStartDrain (s : State) : State := moveTo .oDrainPoll { sampleCount s with expect := rxCount s }

/-- A sentinel's burst; two bytes are expected (R133 steps 8 and 9). -/
def openSentinel (burst : List Byte) (q : Seq) (s : State) : State := moveTo q { txWrite burst s with expect := 2 }

/-- The comparison of the whole retrieval with the echo (R133 steps 8 and 9). -/
def openCompare (echo : List Byte) (q : Seq) (s : State) : State :=
  if s.rxbuf = echo then moveTo q s else moveTo .oAbort s

/-- A failed handshake, first half: `Ctrl(Release)` (R133, R203). -/
def openAbort (s : State) : State := moveTo .oFail (releaseBridge s)

/-- A failed handshake, second half: `Fail(SYNC)` (R133, R203). -/
def openFail (s : State) : State := fail .sync s

/-- Step 13 of OPEN: ADDR and SESS are written together (R134). -/
def openDone (a : BitVec 7) (s : State) : State := succeed [] { s with addr := a, sess := .opened }

/-- The action of each SEQ state of OPEN; its polls are run by POLL (R133). -/
def advanceOpen (a : BitVec 7) (s : State) : StepOutcome :=
  match s.seq with
  | .oCheck => .next (openCheck s)
  | .oAcq => .next (openAcquire s)
  | .oRefused => .next (openRefused s)
  | .oRst => .next (moveTo .oDrain (ctrl .reset s))
  | .oDrain => .next (openStartDrain s)
  | .oCfgLatency => .next (moveTo .oCfgUsb (ctrl (.setLatency Config.latMs) s))
  | .oCfgUsb => .next (moveTo .oCfgTimeouts (ctrl (.setUsb Config.usbIn Config.usbOut) s))
  | .oCfgTimeouts => .next (moveTo .oModeReset (ctrl (.setTimeouts Config.rdToMs Config.wrToMs) s))
  | .oModeReset => .next (moveTo .oModeShift (ctrl (bitModeEvent .neutral) s))
  | .oModeShift => .next (moveTo .oSync1Tx (ctrl (bitModeEvent .clockedShift) s))
  | .oSync1Tx => .next (openSentinel sync1Burst .oSync1Poll s)
  | .oSync1Cmp => .next (openCompare sync1Echo .oSync2Tx s)
  | .oSync2Tx => .next (openSentinel sync2Burst .oSync2Poll s)
  | .oSync2Cmp => .next (openCompare sync2Echo .oClk s)
  | .oAbort => .next (openAbort s)
  | .oFail => .next (openFail s)
  | .oClk => .next (moveTo .oDiv (txWrite clkBurst s))
  | .oDiv => .next (moveTo .oLb (txWrite (divBurst s.div) s))
  | .oLb => .next (moveTo .oDone (txWrite loopBurst s))
  | .oDone => .next (openDone a s)
  | _ => .fault .noMicroStep

/-- OPEN a (R130 to R136). -/
def execOpenSession (a : BitVec 7) (s : State) : StepOutcome :=
  hostOperation (.openSession a) .openOp (hostWordOf 0x1#4 0x00#8 0x00#8 (a.setWidth 8)) (advanceOpen a) s

/-- CLOSE, its first event: `Ctrl(Release)` when Open, `Fail(SESSION_STATE)` when Closed (R137). -/
def closeRelease (s : State) : State :=
  match s.sess with
  | .opened => moveTo .cDone (releaseBridge s)
  | .closed => fail .sessionState s

/-- CLOSE, after the release: `SESS <- Closed; Result(true)` (R137). -/
def closeDone (s : State) : State := succeed [] { s with sess := .closed }

/-- The action of each SEQ position of CLOSE (R137). -/
def advanceClose (s : State) : StepOutcome :=
  match s.seq with
  | .cRel => .next (closeRelease s)
  | .cDone => .next (closeDone s)
  | _ => .fault .noMicroStep

/-- CLOSE (R137, R138). -/
def execCloseSession (s : State) : StepOutcome :=
  hostOperation .closeSession .closeOp (hostWordOf 0x2#4 0x00#8 0x00#8 0x00#8) advanceClose s

/-- The action of the one SEQ state of SETADDR: `ADDR <- a; Result(true)` (R139). -/
def advanceSetAddr (a : BitVec 7) (s : State) : StepOutcome :=
  match s.seq with
  | .aSet => .next (succeed [] { s with addr := a })
  | _ => .fault .noMicroStep

/-- SETADDR a (R139). -/
def execSetAddr (a : BitVec 7) (s : State) : StepOutcome :=
  hostOperation (.setAddr a) .setAddrOp (hostWordOf 0x3#4 0x00#8 0x00#8 (a.setWidth 8)) (advanceSetAddr a) s

end Sys2Proof.Machine
end

