-- ==== Sys2Proof/Machine/Poller.lean ====
section
/-! DEFINITION. The Response Poller: POLL (43_poller.md). Each sample of the queue count is one step (R195). -/

namespace Sys2Proof.Machine

/-- `POLLCNT <- 0`, and EXPECT is the expected number of this poll (R30, R31, R190). -/
def pollStart (n : Nat) (s : State) : State := { s with pollcnt := 0#20, expect := n, pollAt := .sample }

/-- One turn of the loop: `while POLLCNT < POLL_MAX: q <- RxCount(); if q = n: break; POLLCNT <- POLLCNT + 1`
(R190, R191). -/
def pollSample (n : Nat) (s : State) : State :=
  if s.pollcnt.toNat < Config.pollMax then
    if rxCount s = n then { sampleCount s with pollAt := .count }
    else { sampleCount s with pollcnt := s.pollcnt + 1#20 }
  else { s with pollAt := .count }

/-- `m <- RxCount()`, "currently reports queued" (R190). -/
def pollCount (s : State) : State := { sampleCount s with pollAt := .retrieve (rxCount s) }

/-- `RXBUF <- RxRead(m); RXLEN <- m`, exactly one retrieval, which ends the poll (R190, R194); fewer
than `m` bytes queued: log 32. -/
def pollRetrieve (m : Nat) (s : State) : State := { rxRead m s with pollAt := .idle }

/-- POLL n: one step of `Poll(n)` (R190). -/
def execPoll (n : Nat) (s : State) : StepOutcome :=
  match s.pollAt with
  | .idle => .next (pollStart n s)
  | .sample => .next (pollSample n s)
  | .count => .next (pollCount s)
  | .retrieve m => .next (pollRetrieve m s)

/-- Whether the next step of the poll ends it. -/
def pollEnds (s : State) : Bool :=
  match s.pollAt with
  | .idle => false
  | .sample => false
  | .count => false
  | .retrieve _ => true

end Sys2Proof.Machine
end

