-- ==== Sys2Proof/Machine/Primitives.lean ====
section
/-! DEFINITION. Primitives of the Command Buffer Builder: START, STOP, WRBYTE, RDBYTE (41_primitives.md). Each is
`CbAppend` of a fixed sequence and nothing else (R150). -/

namespace Sys2Proof.Machine

/-- START (R153). -/
def execStart (s : State) : StepOutcome := .next (cbAppend startBytes s)

/-- STOP (R154). -/
def execStop (s : State) : StepOutcome := .next (cbAppend stopBytes s)

/-- WRBYTE(v) (R155). -/
def execWrByte (v : Byte) (s : State) : StepOutcome := .next (cbAppend (wrByteBytes s.cfg.nrepData v) s)

/-- RDBYTE(w) (R157). -/
def execRdByte (w : Bool) (s : State) : StepOutcome := .next (cbAppend (rdByteBytes s.cfg.nrepData w) s)

end Sys2Proof.Machine
end

