-- ==== Sys2Proof/Machine/Transactions.lean ====
section
/-! DEFINITION. The Transaction Orchestrator and its ack validator: RDREG, WRREG (42_transactions.md). -/

namespace Sys2Proof.Machine

/-- The session check, the first act of a transaction (R170). -/
def sessionCheck (s : State) : State :=
  match s.sess with
  | .closed => fail .sessionState s
  | .opened => moveTo (.tBuild .clear) s

/-- `CbClear()`, which begins the build (R171, R175). -/
def buildClear (s : State) : State := moveTo (.tBuild .start) (cbClear s)

/-- `TxWrite(CB)`, once; then EXPECT is set (R172). -/
def sendBuffer (n : Nat) (s : State) : State := moveTo .tPoll { txWrite s.cb s with expect := n }

/-- Step 2 of the validator: `NAK[k] <- RXBUF[k][0]` (R178). -/
def recordNak (s : State) : State :=
  { s with nak0 := nakBit s.rxbuf 0, nak1 := nakBit s.rxbuf 1, nak2 := nakBit s.rxbuf 2 }

/-- The result R178 leaves unspecified under LENIENT: its OK, its cause and its data are free values (U1), within the
limits of R97 and R205: CAUSE is 0 when OK = 1 and never LENGTH, and only a successful read has data, at most 255
bytes. -/
def lenientResult (isRead : Bool) (s : State) : State :=
  drawn
    (if Config.lenientOk s.draws then
      succeed (if isRead then (Config.lenientData s.draws).take 255 else []) s
    else fail (Config.lenientCause s.draws).toCause s)

/-- Steps 2 to 4 of the validator (R178): the acknowledgement bits, then the result; `data` is what a success
returns. -/
def checkAcks (data : List Byte) (s : State) : State :=
  if anyNak s.rxbuf then fail .ack (recordNak s) else succeed data (recordNak s)

/-- The ack validator (R178); `isRead` tells RDREG from WRREG. -/
def validate (isRead : Bool) (s : State) : State :=
  match lengthCheck s.cfg.policy s.expect s.rxlen with
  | .wrong => fail .length s
  | .unspecified => lenientResult isRead s
  | .usable => checkAcks (if isRead then s.rxbuf.drop 3 else []) s

/-- The action of each SEQ state of RDREG r, n; the primitives of its build and its poll are run as instructions of
their own (R171, R173, R179). -/
def advanceRdReg (n : Byte) (s : State) : StepOutcome :=
  match s.seq with
  | .tCheck => .next (sessionCheck s)
  | .tBuild .clear => .next (buildClear s)
  | .tTx => .next (sendBuffer (n.toNat + 3) s)
  | .tValid => .next (validate true s)
  | _ => .fault .noMicroStep

/-- RDREG r, n (R171 to R174, R179). -/
def execRdReg (r n : Byte) (s : State) : StepOutcome :=
  hostOperation (.rdReg r n) .rdRegOp (hostWordOf 0x4#4 n r 0x00#8) (advanceRdReg n) s

/-- The action of each SEQ state of WRREG r, v; the primitives of its build and its poll are run as instructions of
their own (R175, R180). -/
def advanceWrReg (s : State) : StepOutcome :=
  match s.seq with
  | .tCheck => .next (sessionCheck s)
  | .tBuild .clear => .next (buildClear s)
  | .tTx => .next (sendBuffer 3 s)
  | .tValid => .next (validate false s)
  | _ => .fault .noMicroStep

/-- WRREG r, v (R175, R180). -/
def execWrReg (r v : Byte) (s : State) : StepOutcome :=
  hostOperation (.wrReg r v) .wrRegOp (hostWordOf 0x5#4 0x00#8 r v) advanceWrReg s

end Sys2Proof.Machine
end

