-- ==== Sys2Proof/Machine/Dispatch.lean ====
section
/-! DEFINITION. Dispatch: the meaning of every instruction, one arm for each constructor of `Instr`. -/

namespace Sys2Proof.Machine

def exec (i : Instr) (s : State) : Host.Outcome State Fault Refusal :=
  match i with
  -- host operations
  | .openSession a => Sys2Proof.Machine.execOpenSession a s
  | .closeSession => Sys2Proof.Machine.execCloseSession s
  | .setAddr a => Sys2Proof.Machine.execSetAddr a s
  | .rdReg r n => Sys2Proof.Machine.execRdReg r n s
  | .wrReg r v => Sys2Proof.Machine.execWrReg r v s
  -- primitives
  | .start => Sys2Proof.Machine.execStart s
  | .stop => Sys2Proof.Machine.execStop s
  | .wrByte v => Sys2Proof.Machine.execWrByte v s
  | .rdByte w => Sys2Proof.Machine.execRdByte w s
  | .poll n => Sys2Proof.Machine.execPoll n s
  -- bridge commands
  | .gpio d v => Sys2Proof.Machine.execGpio d v s
  | .byteOut v => Sys2Proof.Machine.execByteOut v s
  | .byteIn => Sys2Proof.Machine.execByteIn s
  | .bitIn => Sys2Proof.Machine.execBitIn s
  | .bitOut b => Sys2Proof.Machine.execBitOut b s
  | .clkNoDiv5 => Sys2Proof.Machine.execClkNoDiv5 s
  | .clkNoAdapt => Sys2Proof.Machine.execClkNoAdapt s
  | .clkPhase => Sys2Proof.Machine.execClkPhase s
  | .loopOff => Sys2Proof.Machine.execLoopOff s
  | .sendNow => Sys2Proof.Machine.execSendNow s
  | .setDiv l h => Sys2Proof.Machine.execSetDiv l h s
  | .sync1 => Sys2Proof.Machine.execSync1 s
  | .sync2 => Sys2Proof.Machine.execSync2 s

end Sys2Proof.Machine
end

