-- ==== Sys2Proof/Machine/Fetch.lean ====
section
/-! DEFINITION. Fetch: where the next instruction of each agent comes from, and what stands around its meaning: the
host's word at the command port (30_encoding.md R91, R93), the primitive a SEQ state runs (R90, 10_state.md R28), the
poll in progress (43_poller.md R190), the front of the bridge's command stream (30_encoding.md R100). -/

namespace Sys2Proof.Machine

/-- What the controller does in its next step. -/
inductive Fetched where
  /-- IDLE and no word at the port. -/
  | wait
  /-- IDLE and a word that selects no row (R96). -/
  | illegal (w : HostWord)
  /-- IDLE and a word to accept (R93). -/
  | host (i : Instr)
  /-- A SEQ state of the operation in progress. -/
  | operation (i : Instr)
  /-- A position of `T_BUILD` that runs a primitive. -/
  | primitive (i : Instr)
  /-- A SEQ state that polls. -/
  | poll (n : Nat)
deriving DecidableEq, Repr

/-- The primitive of each build position: RDREG's plan (R171) and WRREG's (R175). -/
def primitiveAt (s : State) (p : BuildPos) : Option Instr :=
  match s.op with
  | .rdRegOp =>
    match p with
    | .clear => none
    | .start => some .start
    | .wrAddrW => some (.wrByte (addrByte s.addr 0#1))
    | .wrRegAddr => some (.wrByte s.aReg)
    | .wrVal => none
    | .start2 => some .start
    | .wrAddrR => some (.wrByte (addrByte s.addr 1#1))
    | .rdLoop => some (.rdByte (wantAck s.idx s.aCnt))
    | .stop => some .stop
  | .wrRegOp =>
    match p with
    | .clear => none
    | .start => some .start
    | .wrAddrW => some (.wrByte (addrByte s.addr 0#1))
    | .wrRegAddr => some (.wrByte s.aReg)
    | .wrVal => some (.wrByte s.aVal)
    | .start2 => none
    | .wrAddrR => none
    | .rdLoop => none
    | .stop => some .stop
  | .openOp => none
  | .closeOp => none
  | .setAddrOp => none

/-- Whether the operation in progress polls in its SEQ state (R28). -/
def pollsHere (s : State) : Bool :=
  match s.op, s.seq with
  | .openOp, .oDrainPoll => true
  | .openOp, .oSync1Poll => true
  | .openOp, .oSync2Poll => true
  | .rdRegOp, .tPoll => true
  | .wrRegOp, .tPoll => true
  | _, _ => false

/-- What a SEQ state of the operation in progress runs (R28, R90). -/
def fetchBusy (s : State) : Fetched :=
  if pollsHere s then .poll s.expect
  else
    match s.seq with
    | .tBuild p =>
      match primitiveAt s p with
      | some i => .primitive i
      | none => .operation (inProgress s)
    | _ => .operation (inProgress s)

/-- What the word at the command port asks for (R91, R93, R96). -/
def fetchIdle (s : State) : Fetched :=
  match s.port with
  | none => .wait
  | some w =>
    match decodeHost w with
    | .ok i => .host i
    | .error _ => .illegal w

/-- The controller's next action. -/
def fetch (s : State) : Fetched := if s.busy then fetchBusy s else fetchIdle s

/-- The environment acts before the controller's next event (R64). -/
def endTurn (s : State) : State := { s with turn := .env }

/-- The port's word has been taken (R91). -/
def takeWord (s : State) : State := { s with port := none }

/-- RDREG's read loop: IDX counts up to `A_CNT - 1` and the loop ends there (R29, R37, R171). -/
def afterRead (s : State) : State :=
  if s.idx.toNat + 1 = s.aCnt.toNat then moveTo (.tBuild .stop) s
  else { s with idx := s.idx + 1#8 }

/-- After the read-direction address byte: IDX starts at 0, and no RDBYTE is appended when the count is 0 (R29, R171,
R174). -/
def enterRead (s : State) : State :=
  if s.aCnt = 0x00#8 then moveTo (.tBuild .stop) { s with idx := 0x00#8 }
  else moveTo (.tBuild .rdLoop) { s with idx := 0x00#8 }

/-- After the register address byte: RDREG repeats the start, WRREG writes its value (R171, R175). -/
def afterRegAddr (s : State) : State :=
  match s.op with
  | .wrRegOp => moveTo (.tBuild .wrVal) s
  | _ => moveTo (.tBuild .start2) s

/-- SEQ moves on after a primitive of the build (R28, R171, R175). -/
def afterPrimitive (s : State) : State :=
  match s.seq with
  | .tBuild .start => moveTo (.tBuild .wrAddrW) s
  | .tBuild .wrAddrW => moveTo (.tBuild .wrRegAddr) s
  | .tBuild .wrRegAddr => afterRegAddr s
  | .tBuild .wrVal => moveTo (.tBuild .stop) s
  | .tBuild .start2 => moveTo (.tBuild .wrAddrR) s
  | .tBuild .wrAddrR => enterRead s
  | .tBuild .rdLoop => afterRead s
  | .tBuild .stop => moveTo .tTx s
  | _ => s

/-- The SEQ state after a poll has ended (R28). -/
def afterPoll (s : State) : State :=
  match s.seq with
  | .oDrainPoll => moveTo .oCfgLatency s
  | .oSync1Poll => moveTo .oSync1Cmp s
  | .oSync2Poll => moveTo .oSync2Cmp s
  | .tPoll => moveTo .tValid s
  | _ => s

/-- The bridge has run the front command of its stream; `rest` is what is left of it. -/
def takeCommand (rest : List Byte) (s : State) : State := { s with bridge := { s.bridge with cmdq := rest } }

/-- Place an encoding where the next step fetches it: a host word at the command port of an idle block, at the
controller's turn; the bytes of a bridge command as the bridge's stream, at the bridge's turn. -/
def placeEncoding (e : Encoding) (s : State) : State :=
  match e with
  | .hostWord w => { s with turn := .controller, busy := false, port := some w }
  | .commandBytes bs => { s with turn := .bridge, bridge := { s.bridge with cmdq := bs } }
  | .sequencerState => s

end Sys2Proof.Machine
end

