-- ==== Sys2Proof/Machine/Turns.lean ====
section
/-! DEFINITION. Turns: one step of each agent (00_scope.md R12): the controller, the bridge, and the environment that
schedules them, presents host words and delivers bytes (20_memory.md R64, R66). -/

namespace Sys2Proof.Machine

/-- One step of the controller: one event or internal action (D1). -/
def controllerTurn (s : State) : StepOutcome :=
  match fetch s with
  | .wait => .next (endTurn s)
  | .illegal w => .next (endTurn (takeWord (failIllegal w s)))
  | .host i => mapNext (fun t => endTurn (takeWord t)) (exec i s)
  | .operation i => mapNext endTurn (exec i s)
  | .primitive i => mapNext (fun t => endTurn (afterPrimitive t)) (exec i s)
  | .poll n => mapNext (fun t => endTurn (if pollEnds s then afterPoll t else t)) (exec (.poll n) s)

/-- One step of the bridge: the front command of its stream (R100, R223). It waits for bytes that have not arrived. -/
def bridgeTurn (s : State) : StepOutcome :=
  match decodeBridge s.bridge.cmdq with
  | .ok (i, rest) => mapNext (fun t => endTurn (takeCommand rest t)) (exec i s)
  | .error .empty => .next (endTurn s)
  | .error .incomplete => .next (endTurn s)
  | .error .undefinedOpcode => .next (endTurn (undefinedCommand s))
  | .error .lengthOperand => .next (endTurn (undefinedCommand s))

/-- The environment's next event: an input, or, when the inputs have run out, a free value (R66). -/
def nextEvent (s : State) : EnvEvent :=
  match s.inputs.events with
  | e :: _ => e
  | [] => Config.envEvent s.draws

/-- The event has been used. -/
def takeEvent (s : State) : State :=
  match s.inputs.events with
  | _ :: es => { s with inputs := { s.inputs with events := es } }
  | [] => drawn s

/-- The host presents a word; one it already holds stays (R91). -/
def presentWord (w : HostWord) (s : State) : State :=
  match s.port with
  | some _ => s
  | none => { s with port := some w }

/-- What an event does. -/
def applyEvent (e : EnvEvent) (s : State) : State :=
  match e with
  | .yield => { s with turn := .controller }
  | .run => { s with turn := .bridge }
  | .flush => flushResponses s
  | .arrive bs => arriveBytes bs s
  | .present w => presentWord w s
  | .otherSession b => otherUse b s
  | .reset => resetInput s

/-- One step of the environment. -/
def envTurn (s : State) : StepOutcome := .next (applyEvent (nextEvent s) (takeEvent s))

/-- One step of the agent whose turn it is. -/
def stepTurn (s : State) : StepOutcome :=
  match s.turn with
  | .controller => controllerTurn s
  | .bridge => bridgeTurn s
  | .env => envTurn s

end Sys2Proof.Machine
end

