-- ==== Sys2Proof/Machine/Step.lean ====
section
/-! DEFINITION. Step: one step of the machine, and the placing of an instruction's words where it fetches. -/

namespace Sys2Proof.Machine

/-- One step of the machine: one event or internal action of the agent whose turn it is (00_scope.md R12, D1). -/
def step (s : State) : Host.Outcome State Fault Refusal := stepTurn s

/-- `s` with the instruction whose bits are `w`, numbered as opcode_table.json numbers them, stored where the next
step fetches: a host word at the command port, a bridge command in the bridge's stream. -/
def State.withFetchWord (s : State) (nbits w : Nat) : State := placeEncoding (tableEncoding nbits w) s

end Sys2Proof.Machine
end

