-- ==== Sys2Proof/Safety.lean ====
section
/-! DEFINITION. Safety: the terms the claims use. Runs of the machine, the bursts and bus frames the rules give for a
whole transaction (30_encoding.md R116, 42_transactions.md R171, R175, R177), the open-drain rule (R152), and the
invariants of the block (10_state.md R22, R28, R30, R31, R37; 20_memory.md R63). -/

namespace Sys2Proof.Machine

/-! ## Runs -/

/-- `n` steps of the machine, stopping at the first fault or refusal. -/
def runSteps (n : Nat) (s : State) : StepOutcome :=
  match n with
  | 0 => .next s
  | k + 1 =>
    match step s with
    | .next t => runSteps k t
    | .fault r => .fault r
    | .refused r => .refused r

/-- The meanings of a list of instructions, one after the other, stopping at the first fault or refusal: what the
bridge does with the commands of a burst (R223). -/
def executeAll (is : List Instr) (s : State) : StepOutcome :=
  match is with
  | [] => .next s
  | i :: rest =>
    match exec i s with
    | .next t => executeAll rest t
    | .fault r => .fault r
    | .refused r => .refused r

/-! ## Bursts of whole transactions -/

/-- The read bytes of RDREG for count `n`: `RDBYTE(true)^(n-1); RDBYTE(false)`, nothing for 0 (R116, R174). -/
def readPlan (c : NRepData) (n : Nat) : List Byte :=
  match n with
  | 0 => []
  | k + 1 => repeatBytes k (rdByteBytes c true) ++ rdByteBytes c false

/-- What the two transactions append first: START, the write-direction address byte, the register address byte
(R171, R175). -/
def addressPart (c : NRepData) (a : BitVec 7) (r : Byte) : List Byte :=
  startBytes ++ wrByteBytes c (addrByte a 0#1) ++ wrByteBytes c r

/-- The burst of WRREG r, v at device address `a` (R116, R175). -/
def wrRegBurst (c : NRepData) (a : BitVec 7) (r v : Byte) : List Byte :=
  addressPart c a r ++ wrByteBytes c v ++ stopBytes

/-- The burst of RDREG r, n at device address `a` (R116, R171). -/
def rdRegBurst (c : NRepData) (a : BitVec 7) (r n : Byte) : List Byte :=
  addressPart c a r ++ startBytes ++ wrByteBytes c (addrByte a 1#1) ++ readPlan c n.toNat ++ stopBytes

/-! ## Bus frames -/

/-- A byte the master sends and its acknowledge slot at level `l` (R177). -/
def masterByte (v : Byte) (l : Bool) : List BusEvent := [.byteOut v, .bitIn l]

/-- The bytes the peer sends, each answered by ack but the last, answered by nak (R177). -/
def peerBytes : List Byte → List BusEvent
  | [] => []
  | [b] => [.byteIn b, .bitOut true]
  | b :: c :: rest => .byteIn b :: .bitOut false :: peerBytes (c :: rest)

/-- `S [2·ADDR] A [r] A [v] A P`, with the three acknowledge slots at the given levels (R177). -/
def wrRegFrame (a : BitVec 7) (r v : Byte) (l0 l1 l2 : Bool) : List BusEvent :=
  [.start] ++ masterByte (addrByte a 0#1) l0 ++ masterByte r l1 ++ masterByte v l2 ++ [.stop]

/-- `S [2·ADDR] A [r] A Sr [2·ADDR+1] A B[0] a … B[n-1] n P` (R177). -/
def rdRegFrame (a : BitVec 7) (r : Byte) (l0 l1 l2 : Bool) (bs : List Byte) : List BusEvent :=
  [.start] ++ masterByte (addrByte a 0#1) l0 ++ masterByte r l1 ++ [.start] ++
    masterByte (addrByte a 1#1) l2 ++ peerBytes bs ++ [.stop]

/-- The eight levels by which a peer sends a byte, most significant first (R67 (a)). -/
def levelsOf (b : Byte) : List Bool :=
  [b.getLsbD 7, b.getLsbD 6, b.getLsbD 5, b.getLsbD 4, b.getLsbD 3, b.getLsbD 2, b.getLsbD 1, b.getLsbD 0]

/-- The levels by which a peer sends several bytes. -/
def levelsOfAll : List Byte → List Bool
  | [] => []
  | b :: rest => levelsOf b ++ levelsOfAll rest

/-! ## The open-drain rule -/

/-- No pin that is an output is at level 1: `DIR & VAL & 0x03 = 0` (R152). -/
def openDrain (d v : Byte) : Bool := d &&& v &&& 0x03#8 == 0x00#8

/-- Whether an instruction is a GPIO triple that breaks the open-drain rule. -/
def drivesHigh : Instr → Bool
  | .gpio d v => !openDrain d v
  | _ => false

/-! ## Counting the commands of a stream (R162) -/

/-- A GPIO triple. -/
def isGpio : Instr → Bool
  | .gpio _ _ => true
  | _ => false

/-- A clocked-shift command: BYTE_OUT, BYTE_IN, BIT_IN, BIT_OUT (R100). -/
def isShift : Instr → Bool
  | .byteOut _ => true
  | .byteIn => true
  | .bitIn => true
  | .bitOut _ => true
  | _ => false

/-- SEND_NOW, 0x87. -/
def isSendNow : Instr → Bool
  | .sendNow => true
  | _ => false

/-- How many response bytes a command produces: BIT_IN and BYTE_IN one, a sentinel two, every other none (R114). -/
def responseCount : Instr → Nat
  | .bitIn => 1
  | .byteIn => 1
  | .sync1 => 2
  | .sync2 => 2
  | _ => 0

/-- How many response bytes the commands of a stream produce (R114). -/
def responseTotal : List Instr → Nat
  | [] => 0
  | i :: rest => responseCount i + responseTotal rest

/-- Where a scan of a stream stands after a byte the master sends (R35 (3)). -/
inductive AckScan where
  /-- No byte write is open. -/
  | clear
  /-- After BYTE_OUT: the next shift command must be the read of its acknowledgement bit. -/
  | wantsBit
  /-- After that read: SEND_NOW must come before any other shift command. -/
  | wantsFlush
deriving DecidableEq, Repr

/-- "Every byte-write primitive in the buffer is immediately followed by a read of its acknowledgement bit": in the
stream, BYTE_OUT is followed, before any other shift command, by BIT_IN and SEND_NOW (R35 (3), R155). -/
def ackFollows (a : AckScan) (is : List Instr) : Bool :=
  match is with
  | [] => a == .clear
  | i :: rest =>
    match a with
    | .clear =>
      match i with
      | .byteOut _ => ackFollows .wantsBit rest
      | _ => ackFollows .clear rest
    | .wantsBit =>
      match i with
      | .bitIn => ackFollows .wantsFlush rest
      | _ => if isShift i then false else ackFollows .wantsBit rest
    | .wantsFlush =>
      match i with
      | .sendNow => ackFollows .clear rest
      | _ => if isShift i then false else ackFollows .wantsFlush rest

/-- A stream the block may emit: it decodes to the commands of R100, each well formed, no GPIO triple drives a line
high (R152), and every byte the master sends is followed by its acknowledgement and a flush (R35 (3), R114). -/
def disciplined (bs : List Byte) : Bool :=
  match decodeBurst bs with
  | some cs =>
    cs.all (fun i => i.level == .bridgeCommand && i.wellFormed && !drivesHigh i) && ackFollows .clear cs
  | none => false

/-! ## Where the events of the history stand (R28, R133, R137, R172) -/

/-- The burst a SEQ position sends: OPEN's five (R133 steps 8 to 12), and the whole of CB of a transaction (R172). -/
def burstAt (s : State) : Option (List Byte) :=
  match s.op, s.seq with
  | .openOp, .oSync1Tx => some [0xAA#8]
  | .openOp, .oSync2Tx => some [0xAB#8]
  | .openOp, .oClk => some [0x8A#8, 0x97#8, 0x8C#8]
  | .openOp, .oDiv => some [0x80#8, 0x00#8, 0x00#8, 0x86#8, s.div.extractLsb' 0 8, s.div.extractLsb' 8 8]
  | .openOp, .oLb => some [0x85#8]
  | .rdRegOp, .tTx => some s.cb
  | .wrRegOp, .tTx => some s.cb
  | _, _ => none

/-- The control event a SEQ position sends: OPEN's (R133 steps 2, 3, 5 to 9), and the release of a CLOSE that finds the
session Open (R137). -/
def ctrlAt (s : State) : Option CtrlEvent :=
  match s.op, s.seq with
  | .openOp, .oAcq => some (.acquire Config.deviceId)
  | .openOp, .oRst => some .reset
  | .openOp, .oCfgLatency => some (.setLatency Config.latMs)
  | .openOp, .oCfgUsb => some (.setUsb Config.usbIn Config.usbOut)
  | .openOp, .oCfgTimeouts => some (.setTimeouts Config.rdToMs Config.wrToMs)
  | .openOp, .oModeReset => some (bitModeEvent .neutral)
  | .openOp, .oModeShift => some (bitModeEvent .clockedShift)
  | .openOp, .oAbort => some .release
  | .closeOp, .cRel => if s.sess = .opened then some .release else none
  | _, _ => none

/-- Whether a transaction has sent its burst and waits for the response or validates it (R172, R173, R178). -/
def sent : Seq → Bool
  | .tPoll => true
  | .tValid => true
  | _ => false

/-! ## Schedules of a prompt environment -/

/-- A schedule for WRREG: the environment yields at once, and the response is queued after the burst is sent and
before the first sample of the poll (R66). -/
def writeScript (resp : List Byte) : List EnvEvent :=
  List.replicate 8 .yield ++ [.arrive resp, .yield] ++ List.replicate 4 .yield

/-- The same for RDREG of count `n`. -/
def readScript (n : Nat) (resp : List Byte) : List EnvEvent :=
  List.replicate (9 + n) .yield ++ [.arrive resp, .yield] ++ List.replicate 4 .yield

/-- A schedule for OPEN: the bridge runs each sentinel after its burst and makes the echo visible. -/
def openScript : List EnvEvent :=
  List.replicate 14 .yield ++ [.run, .flush, .yield] ++ List.replicate 5 .yield ++ [.run, .flush, .yield] ++
    List.replicate 8 .yield

/-! ## Invariants -/

/-- Whether SEQ is a state of the operation's micro-program (R28). -/
def inProgram : HostOp → Seq → Bool
  | .openOp, .oCheck => true
  | .openOp, .oAcq => true
  | .openOp, .oRefused => true
  | .openOp, .oRst => true
  | .openOp, .oDrain => true
  | .openOp, .oDrainPoll => true
  | .openOp, .oCfgLatency => true
  | .openOp, .oCfgUsb => true
  | .openOp, .oCfgTimeouts => true
  | .openOp, .oModeReset => true
  | .openOp, .oModeShift => true
  | .openOp, .oSync1Tx => true
  | .openOp, .oSync1Poll => true
  | .openOp, .oSync1Cmp => true
  | .openOp, .oSync2Tx => true
  | .openOp, .oSync2Poll => true
  | .openOp, .oSync2Cmp => true
  | .openOp, .oAbort => true
  | .openOp, .oFail => true
  | .openOp, .oClk => true
  | .openOp, .oDiv => true
  | .openOp, .oLb => true
  | .openOp, .oDone => true
  | .closeOp, .cRel => true
  | .closeOp, .cDone => true
  | .setAddrOp, .aSet => true
  | .rdRegOp, .tCheck => true
  | .rdRegOp, .tBuild .wrVal => false
  | .rdRegOp, .tBuild _ => true
  | .rdRegOp, .tTx => true
  | .rdRegOp, .tPoll => true
  | .rdRegOp, .tValid => true
  | .wrRegOp, .tCheck => true
  | .wrRegOp, .tBuild .start2 => false
  | .wrRegOp, .tBuild .wrAddrR => false
  | .wrRegOp, .tBuild .rdLoop => false
  | .wrRegOp, .tBuild _ => true
  | .wrRegOp, .tTx => true
  | .wrRegOp, .tPoll => true
  | .wrRegOp, .tValid => true
  | _, _ => false

/-- "When BUSY = 0 it holds IDLE", and when BUSY = 1 it holds a state of the operation in progress (R28). -/
abbrev SequencerInv (s : State) : Prop :=
  if s.busy then inProgram s.op s.seq = true else s.seq = .idle

/-- Whether the bridge has been acquired by an OPEN that is still in progress (R21, R22). -/
def openHolds : Seq → Bool
  | .oRst => true
  | .oDrain => true
  | .oDrainPoll => true
  | .oCfgLatency => true
  | .oCfgUsb => true
  | .oCfgTimeouts => true
  | .oModeReset => true
  | .oModeShift => true
  | .oSync1Tx => true
  | .oSync1Poll => true
  | .oSync1Cmp => true
  | .oSync2Tx => true
  | .oSync2Poll => true
  | .oSync2Cmp => true
  | .oAbort => true
  | .oClk => true
  | .oDiv => true
  | .oLb => true
  | .oDone => true
  | _ => false

/-- Whether a transaction has passed its session check (R170). -/
def transactionRuns : Seq → Bool
  | .tBuild _ => true
  | .tTx => true
  | .tPoll => true
  | .tValid => true
  | _ => false

/-- Whether SEQ is in an OPEN that has passed its check and does not hold the bridge (R133, R135). -/
def openWithout : Seq → Bool
  | .oAcq => true
  | .oRefused => true
  | .oFail => true
  | _ => false

/-- HANDLE and SESS: equal, but inside an OPEN that has acquired the bridge, where SESS still reads Closed, and between
the release of a CLOSE and its result, where SESS still reads Open; a transaction past its check runs in an Open
session; an OPEN past its check runs in a Closed one (R21, R22, R170). -/
abbrev HandleInv (s : State) : Prop :=
  if openHolds s.seq then s.handle = true ∧ s.sess = .closed
  else if openWithout s.seq then s.handle = false ∧ s.sess = .closed
  else if s.seq = .cDone then s.handle = false ∧ s.sess = .opened
  else (s.handle = true ↔ s.sess = .opened) ∧ (transactionRuns s.seq = true → s.sess = .opened)

/-- The sequencer and the handle together: HANDLE can be followed only along the states of R28. -/
abbrev BlockInv (s : State) : Prop := SequencerInv s ∧ HandleInv s

/-- A poll in progress belongs to a SEQ state that polls; POLLCNT is at most POLL_MAX (R30); the count about to be
retrieved is at most what RXQ holds (R63). -/
abbrev PollInv (s : State) : Prop :=
  (s.pollAt ≠ .idle → s.busy = true ∧ pollsHere s = true) ∧ s.pollcnt.toNat ≤ Config.pollMax ∧
    (match s.pollAt with
      | .retrieve m => m ≤ s.bridge.rxq.length
      | _ => True)

/-- EXPECT from the send to the end of a transaction: `A_CNT + 3` for RDREG, 3 for WRREG (R31, R173). -/
abbrev ExpectInv (s : State) : Prop :=
  (s.seq = .tPoll ∨ s.seq = .tValid) →
    (s.op = .rdRegOp → s.expect = s.aCnt.toNat + 3) ∧ (s.op = .wrRegOp → s.expect = 3)

/-- What CB holds at each position of a transaction's build, and from the end of the build on: the part of the burst
appended so far (R171, R175). -/
def builtSoFar (s : State) : Option (List Byte) :=
  match s.op, s.seq with
  | .rdRegOp, .tBuild .start => some []
  | .rdRegOp, .tBuild .wrAddrW => some startBytes
  | .rdRegOp, .tBuild .wrRegAddr => some (startBytes ++ wrByteBytes s.cfg.nrepData (addrByte s.addr 0#1))
  | .rdRegOp, .tBuild .start2 => some (addressPart s.cfg.nrepData s.addr s.aReg)
  | .rdRegOp, .tBuild .wrAddrR => some (addressPart s.cfg.nrepData s.addr s.aReg ++ startBytes)
  | .rdRegOp, .tBuild .rdLoop =>
    some (addressPart s.cfg.nrepData s.addr s.aReg ++ startBytes ++
      wrByteBytes s.cfg.nrepData (addrByte s.addr 1#1) ++
      repeatBytes s.idx.toNat (rdByteBytes s.cfg.nrepData true))
  | .rdRegOp, .tBuild .stop =>
    some (addressPart s.cfg.nrepData s.addr s.aReg ++ startBytes ++
      wrByteBytes s.cfg.nrepData (addrByte s.addr 1#1) ++ readPlan s.cfg.nrepData s.aCnt.toNat)
  | .rdRegOp, .tTx => some (rdRegBurst s.cfg.nrepData s.addr s.aReg s.aCnt)
  | .rdRegOp, .tPoll => some (rdRegBurst s.cfg.nrepData s.addr s.aReg s.aCnt)
  | .rdRegOp, .tValid => some (rdRegBurst s.cfg.nrepData s.addr s.aReg s.aCnt)
  | .wrRegOp, .tBuild .start => some []
  | .wrRegOp, .tBuild .wrAddrW => some startBytes
  | .wrRegOp, .tBuild .wrRegAddr => some (startBytes ++ wrByteBytes s.cfg.nrepData (addrByte s.addr 0#1))
  | .wrRegOp, .tBuild .wrVal => some (addressPart s.cfg.nrepData s.addr s.aReg)
  | .wrRegOp, .tBuild .stop =>
    some (addressPart s.cfg.nrepData s.addr s.aReg ++ wrByteBytes s.cfg.nrepData s.aVal)
  | .wrRegOp, .tTx => some (wrRegBurst s.cfg.nrepData s.addr s.aReg s.aVal)
  | .wrRegOp, .tPoll => some (wrRegBurst s.cfg.nrepData s.addr s.aReg s.aVal)
  | .wrRegOp, .tValid => some (wrRegBurst s.cfg.nrepData s.addr s.aReg s.aVal)
  | _, _ => none

/-- CB holds exactly what the build has appended so far, and IDX stays below A_CNT in the read loop (R29, R37, R171,
R175). -/
abbrev BuildInv (s : State) : Prop :=
  (∀ bs ∈ builtSoFar s, s.cb = bs) ∧
    (s.op = .rdRegOp → s.seq = .tBuild .rdLoop → s.idx.toNat < s.aCnt.toNat)

/-- Every burst sent so far is a stream the block may emit, and CB is on its way to be one (R35 (3), R114, R152). -/
abbrev DisciplineInv (s : State) : Prop := BuildInv s ∧ ∀ bs ∈ s.txh, disciplined bs = true

/-- The environment's duty of exclusive hold, at this step (R221, R255), a premise of the claims that need it (R220):
`Acquire` is granted only if no other session holds the bridge; another session uses the bridge only while this one does
not hold it; and no two others hold it at once. -/
abbrev ExclusiveHold (s : State) : Prop :=
  (acquireReply s = true → s.bridge.others = []) ∧
    (s.turn = .env → ∀ b, nextEvent s = .otherSession b → s.bridge.held = false ∧ b.others.length ≤ 1)

/-- No other session uses the bridge in this step: what the duty gives while this session holds it. -/
abbrev Undisturbed (s : State) : Prop := s.turn = .env → ∀ b, nextEvent s ≠ .otherSession b

/-- At most one session holds the bridge (R38 (b), R221). -/
abbrev OneHolderInv (s : State) : Prop := s.bridge.others.length ≤ if s.bridge.held then 0 else 1

/-- The bridge is held while HANDLE is set (R22, R38 (b), R221). -/
abbrev HoldInv (s : State) : Prop := s.handle = true → s.bridge.held = true

end Sys2Proof.Machine
end

