-- ==== Sys2Proof/Certificates/Slice0/Obligations.lean ====
section
/-! DEFINITION. Obligations: the statements for the provers, from the numbered rules of spec/. Each docstring names the
rules it formalises. A next state is written out in full wherever it can be, so that what is not named in it is
unchanged: that is the instruction's frame. -/

open Sys2Proof Sys2Proof.Machine

/-! ## Encoding -/

/-- Decode and encode agree, for every instruction that has an encoding: host words (R92, R94), command bytes in front
of any further bytes (R100 to R109, R112), and whole encodings (R90). -/
def Obligations.DecodeEncodeAgree : Prop :=
  (∀ i w, encodeHost i = some w → decodeHost w = .ok i) ∧
    (∀ i bs rest, encodeBridge i = some bs → decodeBridge (bs ++ rest) = .ok (i, rest)) ∧
    (∀ i, i.level ≠ .primitive → decodeEncoding (encode i) = some i)

/-- Each accepted word and each accepted command has one meaning: what decodes to an instruction is that instruction's
encoding (R94, R100). -/
def Obligations.EncodeDecodeAgree : Prop :=
  (∀ w i, decodeHost w = .ok i → encodeHost i = some w) ∧
    (∀ bs i rest, decodeBridge bs = .ok (i, rest) → ∃ e, encodeBridge i = some e ∧ bs = e ++ rest)

/-- "A word w selects the row when w & mask = match", with the free fields of each row (R94). -/
def Obligations.HostRowsByMatchAndMask : Prop :=
  ∀ w : HostWord,
    (∀ a, decodeHost w = .ok (.openSession a) ↔ w &&& 0xFFFFFF80#32 = 0x10000000#32 ∧ a = w.extractLsb' 0 7) ∧
    (decodeHost w = .ok .closeSession ↔ w &&& 0xFFFFFFFF#32 = 0x20000000#32) ∧
    (∀ a, decodeHost w = .ok (.setAddr a) ↔ w &&& 0xFFFFFF80#32 = 0x30000000#32 ∧ a = w.extractLsb' 0 7) ∧
    (∀ r n, decodeHost w = .ok (.rdReg r n) ↔
      w &&& 0xFF0000FF#32 = 0x40000000#32 ∧ r = w.extractLsb' 8 8 ∧ n = w.extractLsb' 16 8) ∧
    (∀ r v, decodeHost w = .ok (.wrReg r v) ↔
      w &&& 0xFFFF0000#32 = 0x50000000#32 ∧ r = w.extractLsb' 8 8 ∧ v = w.extractLsb' 0 8)

/-- Which words are illegal, and what an illegal word does: `Fail(ILLEGAL_CMD)` and nothing else (R96). The result word
is OK = 0, CAUSE = 6, the word's own OPC, LEN = 0. That taking and answering it is one step is the model's choice
(log 20). -/
def Obligations.IllegalWordFailsOnly : Prop :=
  (∀ w : HostWord, (∃ e, decodeHost w = .error e) ↔
    ((hostOpc w).toNat = 0 ∨ 6 ≤ (hostOpc w).toNat ∨ hostRsv w ≠ 0#4 ∨
      (((hostOpc w).toNat = 1 ∨ (hostOpc w).toNat = 3) ∧
        (hostCnt w ≠ 0#8 ∨ hostReg w ≠ 0#8 ∨ (hostArg w).getLsbD 7 = true)) ∨
      ((hostOpc w).toNat = 2 ∧ (hostCnt w ≠ 0#8 ∨ hostReg w ≠ 0#8 ∨ hostArg w ≠ 0#8)) ∨
      ((hostOpc w).toNat = 4 ∧ hostArg w ≠ 0#8) ∨
      ((hostOpc w).toNat = 5 ∧ hostCnt w ≠ 0#8))) ∧
    ∀ s w e, s.turn = .controller → s.busy = false → s.port = some w → decodeHost w = .error e →
      step s = .next
        { s with
          resOk := false, resCause := .illegalCmd, resOpc := hostOpc w, resLen := 0#8, resData := [], resValid := true
          hist := s.hist ++ [.result (0x0000000C#32 ||| ((w >>> 28) <<< 4)) []]
          busy := false, seq := .idle, port := none, turn := .env }

/-- A few words written out from R94 and R100 decode to the instructions they stand for. -/
def Obligations.WordsDecodeToTheirRows : Prop :=
  decodeHost 0x10000050#32 = .ok (.openSession 0x50#7) ∧
    decodeHost 0x20000000#32 = .ok .closeSession ∧
    decodeHost 0x3000001D#32 = .ok (.setAddr 0x1D#7) ∧
    decodeHost 0x40023200#32 = .ok (.rdReg 0x32#8 0x02#8) ∧
    decodeHost 0x500001FF#32 = .ok (.wrReg 0x01#8 0xFF#8) ∧
    decodeBridge [0x80#8, 0x02#8, 0x00#8, 0x87#8] = .ok (.gpio 0x02#8 0x00#8, [0x87#8]) ∧
    decodeBridge [0x11#8, 0x00#8, 0x00#8, 0xA0#8] = .ok (.byteOut 0xA0#8, []) ∧
    decodeBridge [0x86#8, 0x5F#8, 0x00#8] = .ok (.setDiv 0x5F#8 0x00#8, []) ∧
    decodeBridge [0x80#8, 0x02#8] = .error .incomplete ∧
    decodeBridge [0x99#8] = .error .undefinedOpcode

/-- `AddrByte(a, d) = zext_8(a) << 1 | d`: `AddrByte(a, 0) = 2a`, `AddrByte(a, 1) = 2a + 1` (R110). -/
def Obligations.AddressByteIsTwiceAddressPlusDirection : Prop :=
  ∀ a : BitVec 7,
    addrByte a 0#1 = a.setWidth 8 <<< 1 ||| 0#8 ∧ addrByte a 1#1 = a.setWidth 8 <<< 1 ||| 1#8 ∧
      (addrByte a 0#1).toNat = 2 * a.toNat ∧ (addrByte a 1#1).toNat = 2 * a.toNat + 1

/-- `AckByte(w)` is 0x00 if wantAck, 0xFF if not; in RDREG wantAck of the i-th read byte is `i != count - 1` (R111). -/
def Obligations.AckByteAndWantAck : Prop :=
  ackByte true = 0x00#8 ∧ ackByte false = 0xFF#8 ∧
    ∀ i n : Byte, wantAck i n = true ↔ (i.toNat : Int) ≠ (n.toNat : Int) - 1

/-- The fields of the result word (R97). -/
def Obligations.ResultWordFields : Prop :=
  ∀ (ok : Bool) (c : Cause) (o : BitVec 4) (l : Byte),
    (rspWord ok c o l).getLsbD 0 = ok ∧ (rspWord ok c o l).extractLsb' 1 3 = c.code ∧
      (rspWord ok c o l).extractLsb' 4 4 = o ∧ (rspWord ok c o l).extractLsb' 8 8 = l ∧
      (rspWord ok c o l).extractLsb' 16 16 = 0#16

/-! ## The step and the instruction it runs -/

/-- A step runs the instruction its agent fetches: the word at the port of an idle block, the front command of the
bridge's stream, the primitive of a build position, the poll of a SEQ state that polls, else the operation in progress;
around it the step takes the word or the command, moves SEQ past a primitive or an ended poll, and passes the turn
(R28, R90, R91, R100). -/
def Obligations.StepRunsFetchedInstruction : Prop :=
  (∀ s w i, s.turn = .controller → s.busy = false → s.port = some w → decodeHost w = .ok i →
    step s = mapNext (fun t => { t with port := none, turn := .env }) (exec i s)) ∧
  (∀ s i rest, s.turn = .bridge → decodeBridge s.bridge.cmdq = .ok (i, rest) →
    step s = mapNext (fun t => { t with turn := .env, bridge := { t.bridge with cmdq := rest } }) (exec i s)) ∧
  (∀ s p i, s.turn = .controller → s.busy = true → s.seq = .tBuild p → primitiveAt s p = some i →
    step s = mapNext (fun t => endTurn (afterPrimitive t)) (exec i s)) ∧
  (∀ s, s.turn = .controller → s.busy = true → pollsHere s = true →
    step s = mapNext (fun t => endTurn (if pollEnds s then afterPoll t else t)) (exec (.poll s.expect) s)) ∧
  (∀ s, s.turn = .controller → s.busy = true → pollsHere s = false →
    (∀ p, s.seq = .tBuild p → primitiveAt s p = none) → step s = mapNext endTurn (exec (inProgress s) s))

/-- Acceptance: while BUSY = 0 a host operation sets BUSY, loads OP and the latches from its word's fields, and goes to
its first state; nothing else changes (R93, R28). -/
def Obligations.AcceptanceLoadsLatches : Prop :=
  ∀ i w o s, s.busy = false → encodeHost i = some w → HostOp.opc o = w.extractLsb' 28 4 →
    exec i s = .next
      { s with
        busy := true, op := o
        aAddr := w.extractLsb' 0 7, aReg := w.extractLsb' 8 8, aVal := w.extractLsb' 0 8, aCnt := w.extractLsb' 16 8
        seq := match o with
          | .openOp => .oCheck
          | .closeOp => .cRel
          | .setAddrOp => .aSet
          | .rdRegOp => .tCheck
          | .wrRegOp => .tCheck }

/-- While BUSY = 1 the port accepts no command: another operation's word changes nothing, and the word stays at the
port whatever step is taken (R32, R91). That another operation's word leaves the state as it is and that the word stays
at the port over a reset are the model's choices (log 24, log 17). -/
def Obligations.BusyPortKeepsWord : Prop :=
  (∀ i s, i.level = .hostOperation → s.busy = true → inProgress s ≠ i → exec i s = .next s) ∧
    (∀ s t w, s.busy = true → s.port = some w → step s = .next t → t.port = some w)

/-! ## OPEN -/

/-- OPEN while the session is Open ends at once with SESSION_STATE; nothing else changes (R132). -/
def Obligations.OpenWhileOpenChangesNothing : Prop :=
  ∀ a s, s.busy = true → inProgress s = .openSession a → s.seq = .oCheck → s.sess = .opened →
    exec (.openSession a) s = .next
      { s with
        resOk := false, resCause := .sessionState, resOpc := 0x1#4, resLen := 0#8, resData := [], resValid := true
        hist := s.hist ++ [.result 0x00000012#32 []], busy := false, seq := .idle }

/-- Steps 1 and 2 of OPEN from Closed: `Ctrl(Acquire(DEVICE_ID))`; granted, the bridge is held; refused, OPEN fails with
TRANSPORT_UNAVAILABLE as its next act and no `Release` is sent. The reply is the environment's: the next decided one, or
a free value (R133 steps 1 and 2, R207). -/
def Obligations.OpenAcquiresOrFails : Prop :=
  (∀ a s, s.busy = true → inProgress s = .openSession a → s.seq = .oCheck → s.sess = .closed →
    exec (.openSession a) s = .next { s with seq := .oAcq }) ∧
  (∀ a s g gs, s.busy = true → inProgress s = .openSession a → s.seq = .oAcq → s.inputs.grants = g :: gs →
    exec (.openSession a) s = .next
      (if g then
        { s with
          hist := s.hist ++ [.ctrl (.acquire Config.deviceId)], inputs := { s.inputs with grants := gs }
          handle := true, bridge := { s.bridge with held := true }, seq := .oRst }
      else
        { s with
          hist := s.hist ++ [.ctrl (.acquire Config.deviceId)], inputs := { s.inputs with grants := gs }
          seq := .oRefused })) ∧
  (∀ a s, s.busy = true → inProgress s = .openSession a → s.seq = .oAcq → s.inputs.grants = [] →
    exec (.openSession a) s = .next
      (if Config.acquireGranted s.draws then
        { s with
          hist := s.hist ++ [.ctrl (.acquire Config.deviceId)], draws := s.draws + 1
          handle := true, bridge := { s.bridge with held := true }, seq := .oRst }
      else
        { s with
          hist := s.hist ++ [.ctrl (.acquire Config.deviceId)], draws := s.draws + 1, seq := .oRefused })) ∧
  (∀ a s, s.busy = true → inProgress s = .openSession a → s.seq = .oRefused →
    exec (.openSession a) s = .next
      { s with
        resOk := false, resCause := .transportUnavailable, resOpc := 0x1#4, resLen := 0#8, resData := []
        resValid := true, hist := s.hist ++ [.result 0x0000001A#32 []], busy := false, seq := .idle })

/-- Steps 3, 5, 6 and 7 of OPEN: the control events in their order, each with its effect on the bridge's configuration
(R131, R133). What the configuration is after `Reset` is a free value (log 14). -/
def Obligations.OpenConfiguresBridgeInOrder : Prop :=
  ∀ a s, s.busy = true → inProgress s = .openSession a →
    (s.seq = .oRst → exec (.openSession a) s = .next
      { s with
        hist := s.hist ++ [.ctrl .reset], draws := s.draws + 1, seq := .oDrain
        bridge := { s.bridge with settings := Config.settingsAfterReset s.draws } }) ∧
    (s.seq = .oCfgLatency → exec (.openSession a) s = .next
      { s with
        hist := s.hist ++ [.ctrl (.setLatency Config.latMs)], seq := .oCfgUsb
        bridge := { s.bridge with settings := { s.bridge.settings with latencyMs := Config.latMs } } }) ∧
    (s.seq = .oCfgUsb → exec (.openSession a) s = .next
      { s with
        hist := s.hist ++ [.ctrl (.setUsb Config.usbIn Config.usbOut)], seq := .oCfgTimeouts
        bridge := { s.bridge with
          settings := { s.bridge.settings with usbIn := Config.usbIn, usbOut := Config.usbOut } } }) ∧
    (s.seq = .oCfgTimeouts → exec (.openSession a) s = .next
      { s with
        hist := s.hist ++ [.ctrl (.setTimeouts Config.rdToMs Config.wrToMs)], seq := .oModeReset
        bridge := { s.bridge with
          settings := { s.bridge.settings with rdTimeoutMs := Config.rdToMs, wrTimeoutMs := Config.wrToMs } } }) ∧
    (s.seq = .oModeReset → exec (.openSession a) s = .next
      { s with
        hist := s.hist ++ [.ctrl (.setBitMode .neutral (Config.bitModeMask .neutral) (Config.bitModeByte .neutral))]
        seq := .oModeShift, bridge := { s.bridge with settings := { s.bridge.settings with mode := .neutral } } }) ∧
    (s.seq = .oModeShift → exec (.openSession a) s = .next
      { s with
        hist := s.hist ++
          [.ctrl (.setBitMode .clockedShift (Config.bitModeMask .clockedShift) (Config.bitModeByte .clockedShift))]
        seq := .oSync1Tx
        bridge := { s.bridge with settings := { s.bridge.settings with mode := .clockedShift } } })

/-- Steps 4, 8 and 9 of OPEN: the drain's expected count is the queue count; each sentinel is one burst, two bytes are
expected, and the whole retrieval is compared with the echo; a mismatch releases the bridge and fails with SYNC, the
session staying Closed and ADDR unchanged (R133, R135, R203). -/
def Obligations.OpenDrainsAndHandshakes : Prop :=
  ∀ a s, s.busy = true → inProgress s = .openSession a →
    (s.seq = .oDrain → exec (.openSession a) s = .next
      { s with
        hist := s.hist ++ [.rxCount s.bridge.rxq.length], expect := s.bridge.rxq.length, seq := .oDrainPoll }) ∧
    (s.seq = .oSync1Tx → exec (.openSession a) s = .next
      { s with
        hist := s.hist ++ [.txWrite [0xAA#8]], bridge := { s.bridge with cmdq := s.bridge.cmdq ++ [0xAA#8] }
        expect := 2, seq := .oSync1Poll }) ∧
    (s.seq = .oSync1Cmp → exec (.openSession a) s = .next
      { s with seq := if s.rxbuf = [0xFA#8, 0xAA#8] then .oSync2Tx else .oAbort }) ∧
    (s.seq = .oSync2Tx → exec (.openSession a) s = .next
      { s with
        hist := s.hist ++ [.txWrite [0xAB#8]], bridge := { s.bridge with cmdq := s.bridge.cmdq ++ [0xAB#8] }
        expect := 2, seq := .oSync2Poll }) ∧
    (s.seq = .oSync2Cmp → exec (.openSession a) s = .next
      { s with seq := if s.rxbuf = [0xFA#8, 0xAB#8] then .oClk else .oAbort }) ∧
    (s.seq = .oAbort → exec (.openSession a) s = .next
      { s with
        hist := s.hist ++ [.ctrl .release], handle := false
        bridge := { s.bridge with held := false }, seq := .oFail }) ∧
    (s.seq = .oFail → exec (.openSession a) s = .next
      { s with
        resOk := false, resCause := .sync, resOpc := 0x1#4, resLen := 0#8, resData := [], resValid := true
        hist := s.hist ++ [.result 0x00000014#32 []], busy := false, seq := .idle })

/-- Steps 10 to 12 of OPEN: three bursts, the divider low byte first (R133, R109). -/
def Obligations.OpenProgramsClockAndDivider : Prop :=
  ∀ a s, s.busy = true → inProgress s = .openSession a →
    (s.seq = .oClk → exec (.openSession a) s = .next
      { s with
        hist := s.hist ++ [.txWrite [0x8A#8, 0x97#8, 0x8C#8]]
        bridge := { s.bridge with cmdq := s.bridge.cmdq ++ [0x8A#8, 0x97#8, 0x8C#8] }, seq := .oDiv }) ∧
    (s.seq = .oDiv → exec (.openSession a) s = .next
      { s with
        hist := s.hist ++ [.txWrite [0x80#8, 0x00#8, 0x00#8, 0x86#8, s.div.extractLsb' 0 8, s.div.extractLsb' 8 8]]
        bridge := { s.bridge with
          cmdq := s.bridge.cmdq ++
            [0x80#8, 0x00#8, 0x00#8, 0x86#8, s.div.extractLsb' 0 8, s.div.extractLsb' 8 8] }
        seq := .oLb }) ∧
    (s.seq = .oLb → exec (.openSession a) s = .next
      { s with
        hist := s.hist ++ [.txWrite [0x85#8]]
        bridge := { s.bridge with cmdq := s.bridge.cmdq ++ [0x85#8] }, seq := .oDone })

/-- Step 13 of OPEN: ADDR and SESS are written together and the result is a success (R133, R134). -/
def Obligations.OpenSuccessWritesAddrAndSess : Prop :=
  ∀ a s, s.busy = true → inProgress s = .openSession a → s.seq = .oDone →
    exec (.openSession a) s = .next
      { s with
        addr := a, sess := .opened
        resOk := true, resCause := .none, resOpc := 0x1#4, resLen := 0#8, resData := [], resValid := true
        hist := s.hist ++ [.result 0x00000011#32 []], busy := false, seq := .idle }

/-- OPEN from a Closed, idle block with a bridge that grants and echoes promptly: after 65 steps the session is Open at
the word's address, whatever was queued has been drained, and the history has gained the events of R133 in that order
and no other, the last of them the result 0x00000011 (R133, R134, R136). The schedule and the grain of a step are the
model's choice (log 5, log 1). -/
def Obligations.OpenSucceedsWithPromptBridge : Prop :=
  ∀ a s evs gs, s.turn = .controller → s.busy = false → s.sess = .closed → s.pollAt = .idle →
    encodeHost (.openSession a) = s.port → s.inputs.events = openScript ++ evs → s.inputs.grants = true :: gs →
    s.bridge.cmdq = [] → s.bridge.resp = [] →
    ∃ t, runSteps 65 s = .next t ∧ t.sess = .opened ∧ t.addr = a ∧ t.handle = true ∧ t.bridge.held = true ∧
      t.busy = false ∧ t.seq = .idle ∧ t.port = none ∧
      t.hist = s.hist ++
        [.ctrl (.acquire Config.deviceId), .ctrl .reset,
          .rxCount s.bridge.rxq.length, .rxCount s.bridge.rxq.length, .rxCount s.bridge.rxq.length,
          .rxRead s.bridge.rxq,
          .ctrl (.setLatency Config.latMs), .ctrl (.setUsb Config.usbIn Config.usbOut),
          .ctrl (.setTimeouts Config.rdToMs Config.wrToMs),
          .ctrl (bitModeEvent .neutral), .ctrl (bitModeEvent .clockedShift),
          .txWrite [0xAA#8], .rxCount 2, .rxCount 2, .rxRead [0xFA#8, 0xAA#8],
          .txWrite [0xAB#8], .rxCount 2, .rxCount 2, .rxRead [0xFA#8, 0xAB#8],
          .txWrite [0x8A#8, 0x97#8, 0x8C#8],
          .txWrite [0x80#8, 0x00#8, 0x00#8, 0x86#8, s.div.extractLsb' 0 8, s.div.extractLsb' 8 8],
          .txWrite [0x85#8], .result 0x00000011#32 []] ∧
      t.rxbuf = [0xFA#8, 0xAB#8] ∧ t.bridge.rxq = [] ∧ t.cb = s.cb ∧ t.div = s.div ∧ t.inputs.events = evs

/-! ## CLOSE and SETADDR -/

/-- CLOSE: Open, one `Release`, then the session is Closed and the result a success; Closed, it fails and nothing else
changes (R137). -/
def Obligations.CloseReleasesOrFails : Prop :=
  ∀ s, s.busy = true → s.op = .closeOp →
    (s.seq = .cRel → s.sess = .opened → exec .closeSession s = .next
      { s with
        hist := s.hist ++ [.ctrl .release], handle := false, bridge := { s.bridge with held := false }
        seq := .cDone }) ∧
    (s.seq = .cDone → exec .closeSession s = .next
      { s with
        sess := .closed
        resOk := true, resCause := .none, resOpc := 0x2#4, resLen := 0#8, resData := [], resValid := true
        hist := s.hist ++ [.result 0x00000021#32 []], busy := false, seq := .idle }) ∧
    (s.seq = .cRel → s.sess = .closed → exec .closeSession s = .next
      { s with
        resOk := false, resCause := .sessionState, resOpc := 0x2#4, resLen := 0#8, resData := [], resValid := true
        hist := s.hist ++ [.result 0x00000022#32 []], busy := false, seq := .idle })

/-- SETADDR in either session state: ADDR is written, the result is a success, no event and no burst is sent (R139). -/
def Obligations.SetAddrRebindsAddress : Prop :=
  ∀ a s, s.busy = true → inProgress s = .setAddr a → s.seq = .aSet →
    exec (.setAddr a) s = .next
      { s with
        addr := a
        resOk := true, resCause := .none, resOpc := 0x3#4, resLen := 0#8, resData := [], resValid := true
        hist := s.hist ++ [.result 0x00000031#32 []], busy := false, seq := .idle }

/-! ## Transactions -/

/-- The session check: Closed, a transaction fails with SESSION_STATE before anything else; CB, TX and RXQ are not
touched. Open, it goes on (R170). -/
def Obligations.ClosedTransactionFailsFirst : Prop :=
  (∀ r n s, s.busy = true → inProgress s = .rdReg r n → s.seq = .tCheck →
    exec (.rdReg r n) s = .next
      (if s.sess = .closed then
        { s with
          resOk := false, resCause := .sessionState, resOpc := 0x4#4, resLen := 0#8, resData := [], resValid := true
          hist := s.hist ++ [.result 0x00000042#32 []], busy := false, seq := .idle }
      else { s with seq := .tBuild .clear })) ∧
  (∀ r v s, s.busy = true → inProgress s = .wrReg r v → s.seq = .tCheck →
    exec (.wrReg r v) s = .next
      (if s.sess = .closed then
        { s with
          resOk := false, resCause := .sessionState, resOpc := 0x5#4, resLen := 0#8, resData := [], resValid := true
          hist := s.hist ++ [.result 0x00000052#32 []], busy := false, seq := .idle }
      else { s with seq := .tBuild .clear }))

/-- `CbClear()` begins the build, and the whole of CB goes out as one burst, after which EXPECT is set (R171, R172,
R173, R175). -/
def Obligations.TransactionClearsAndSendsBuffer : Prop :=
  (∀ r n s, s.busy = true → inProgress s = .rdReg r n →
    (s.seq = .tBuild .clear → exec (.rdReg r n) s = .next { s with cb := [], seq := .tBuild .start }) ∧
    (s.seq = .tTx → exec (.rdReg r n) s = .next
      { s with
        hist := s.hist ++ [.txWrite s.cb], bridge := { s.bridge with cmdq := s.bridge.cmdq ++ s.cb }
        expect := n.toNat + 3, seq := .tPoll })) ∧
  (∀ r v s, s.busy = true → inProgress s = .wrReg r v →
    (s.seq = .tBuild .clear → exec (.wrReg r v) s = .next { s with cb := [], seq := .tBuild .start }) ∧
    (s.seq = .tTx → exec (.wrReg r v) s = .next
      { s with
        hist := s.hist ++ [.txWrite s.cb], bridge := { s.bridge with cmdq := s.bridge.cmdq ++ s.cb }
        expect := 3, seq := .tPoll }))

/-- The validator of WRREG where the retrieval is usable or fails on its length (R178, R180): under STRICT a length
other than EXPECT is LENGTH and NAK is not written; with 3 to 258 bytes (and EXPECT of them under STRICT) NAK takes bit
0 of the first three, and the result is a success exactly when all three are 0. -/
def Obligations.WriteValidatesThreeAcks : Prop :=
  ∀ r v s, s.busy = true → inProgress s = .wrReg r v → s.seq = .tValid →
    (s.cfg.policy = .strict → s.rxbuf.length ≠ s.expect → exec (.wrReg r v) s = .next
      { s with
        resOk := false, resCause := .length, resOpc := 0x5#4, resLen := 0#8, resData := [], resValid := true
        hist := s.hist ++ [.result 0x00000058#32 []], busy := false, seq := .idle }) ∧
    (∀ b0 b1 b2 rest, s.rxbuf = b0 :: b1 :: b2 :: rest → rest.length ≤ 255 →
      (s.cfg.policy = .strict → s.rxbuf.length = s.expect) →
      exec (.wrReg r v) s = .next
        (if b0.getLsbD 0 || b1.getLsbD 0 || b2.getLsbD 0 then
          { s with
            nak0 := b0.getLsbD 0, nak1 := b1.getLsbD 0, nak2 := b2.getLsbD 0
            resOk := false, resCause := .ack, resOpc := 0x5#4, resLen := 0#8, resData := [], resValid := true
            hist := s.hist ++ [.result 0x00000056#32 []], busy := false, seq := .idle }
        else
          { s with
            nak0 := false, nak1 := false, nak2 := false
            resOk := true, resCause := .none, resOpc := 0x5#4, resLen := 0#8, resData := [], resValid := true
            hist := s.hist ++ [.result 0x00000051#32 []], busy := false, seq := .idle }))

/-- The validator of RDREG likewise (R178, R179): a success returns the bytes after the first three, unchanged, and the
result word carries their number. -/
def Obligations.ReadValidatesAndStripsAcks : Prop :=
  ∀ r n s, s.busy = true → inProgress s = .rdReg r n → s.seq = .tValid →
    (s.cfg.policy = .strict → s.rxbuf.length ≠ s.expect → exec (.rdReg r n) s = .next
      { s with
        resOk := false, resCause := .length, resOpc := 0x4#4, resLen := 0#8, resData := [], resValid := true
        hist := s.hist ++ [.result 0x00000048#32 []], busy := false, seq := .idle }) ∧
    (∀ b0 b1 b2 data, s.rxbuf = b0 :: b1 :: b2 :: data → data.length ≤ 255 →
      (s.cfg.policy = .strict → s.rxbuf.length = s.expect) →
      exec (.rdReg r n) s = .next
        (if b0.getLsbD 0 || b1.getLsbD 0 || b2.getLsbD 0 then
          { s with
            nak0 := b0.getLsbD 0, nak1 := b1.getLsbD 0, nak2 := b2.getLsbD 0
            resOk := false, resCause := .ack, resOpc := 0x4#4, resLen := 0#8, resData := [], resValid := true
            hist := s.hist ++ [.result 0x00000046#32 []], busy := false, seq := .idle }
        else
          { s with
            nak0 := false, nak1 := false, nak2 := false
            resOk := true, resCause := .none, resOpc := 0x4#4, resLen := BitVec.ofNat 8 data.length, resData := data
            resValid := true, hist := s.hist ++ [.result (BitVec.ofNat 32 (0x41 + 256 * data.length)) data]
            busy := false, seq := .idle }))

/-- Under LENIENT, with fewer than three bytes or more than 255 after the third, the result is a free value (R178 step
1, U1); the operation still ends, within the limits of R97, with a cause other than LENGTH, and nothing but the result
registers and the draw counter changes. Under LENIENT no step of any agent delivers a result with LENGTH (R205). -/
def Obligations.LenientUnusableLengthStillEnds : Prop :=
  (∀ s, s.busy = true → s.seq = .tValid → s.cfg.policy = .lenient →
      (s.rxbuf.length < 3 ∨ 258 < s.rxbuf.length) →
      (∀ r n, inProgress s = .rdReg r n → ∃ ok c d, exec (.rdReg r n) s = .next
        { s with
          resOk := ok, resCause := c, resOpc := 0x4#4, resLen := BitVec.ofNat 8 d.length, resData := d
          resValid := true, hist := s.hist ++ [.result (rspWord ok c 0x4#4 (BitVec.ofNat 8 d.length)) d]
          busy := false, seq := .idle, draws := s.draws + 1 } ∧
        d.length ≤ 255 ∧ (ok = true → c = .none) ∧ (ok = false → d = []) ∧ c ≠ .length) ∧
      (∀ r v, inProgress s = .wrReg r v → ∃ ok c, exec (.wrReg r v) s = .next
        { s with
          resOk := ok, resCause := c, resOpc := 0x5#4, resLen := 0#8, resData := []
          resValid := true, hist := s.hist ++ [.result (rspWord ok c 0x5#4 0#8) []]
          busy := false, seq := .idle, draws := s.draws + 1 } ∧ (ok = true → c = .none) ∧ c ≠ .length)) ∧
    (∀ s t, s.cfg.policy = .lenient → step s = .next t → t.resh ≠ s.resh → t.resCause ≠ .length)

/-- The bursts' lengths, and that the longest fits CB_DEPTH (R6, R171, R175). -/
def Obligations.TransactionBurstLengths : Prop :=
  ∀ c a r v n,
    (wrRegBurst c a r v).length = 108 + 3 * (7 + 6 * c.count) ∧
      (rdRegBurst c a r n).length = 162 + 3 * (7 + 6 * c.count) + n.toNat * (7 + 9 * c.count) ∧
      (wrRegBurst c a r v).length ≤ Config.cbDepth c ∧ (rdRegBurst c a r n).length ≤ Config.cbDepth c

/-- In every step, CB holds exactly the part of the transaction's burst that the build has appended, whatever the
environment does meanwhile, and IDX stays below A_CNT in the read loop (R29, R37, R171, R175). -/
def Obligations.BuildHoldsPlannedBurst : Prop :=
  ∀ s t, BuildInv s → step s = .next t → BuildInv t

/-- The burst a transaction sends is the whole planned one: WRREG's (R175) and RDREG's (R171), once (R172). -/
def Obligations.PlannedBurstIsSent : Prop :=
  ∀ s, BuildInv s → s.turn = .controller → s.busy = true → s.seq = .tTx →
    (s.op = .wrRegOp → ∃ t, step s = .next t ∧
      t.txh = s.txh ++ [wrRegBurst s.cfg.nrepData s.addr s.aReg s.aVal] ∧ t.expect = 3 ∧ t.seq = .tPoll) ∧
    (s.op = .rdRegOp → ∃ t, step s = .next t ∧
      t.txh = s.txh ++ [rdRegBurst s.cfg.nrepData s.addr s.aReg s.aCnt] ∧ t.expect = s.aCnt.toNat + 3 ∧
      t.seq = .tPoll)

/-- Every burst of the block, of whatever operation and under whatever schedule, is a stream of the thirteen commands,
each as the block may emit it, with no GPIO triple that drives a line high, and with every byte the master sends
followed by the read of its acknowledgement bit and a flush before any other shift command: a step leaves TXH as it was
or adds one such burst, and TXH holds such bursts only. A WRREG burst yields 3 response bytes and an RDREG burst
`count + 3` (R35 (3), R102, R107, R114, R152). -/
def Obligations.BurstsAreDisciplinedStreams : Prop :=
  (∀ s t, BuildInv s → step s = .next t →
    t.txh = s.txh ∨ ∃ bs, t.txh = s.txh ++ [bs] ∧ disciplined bs = true) ∧
  (∀ s t, DisciplineInv s → step s = .next t → DisciplineInv t) ∧
  (∀ bs, disciplined bs = true → ∃ cs, decodeBurst bs = some cs ∧ ackFollows .clear cs = true ∧
    ∀ i ∈ cs, i.level = .bridgeCommand ∧ i.wellFormed = true ∧ drivesHigh i = false) ∧
  (∀ c a r v, disciplined (wrRegBurst c a r v) = true ∧
    ∃ cs, decodeBurst (wrRegBurst c a r v) = some cs ∧ responseTotal cs = 3) ∧
  (∀ c a r n, disciplined (rdRegBurst c a r n) = true ∧
    ∃ cs, decodeBurst (rdRegBurst c a r n) = some cs ∧ responseTotal cs = n.toNat + 3)

/-- WRREG from acceptance to result in an Open session, with the three status bytes queued between the send and the
first sample: 28 steps; the burst is the planned one, NAK takes the three low bits, and the result is 0x51 when all are
0, else 0x56; the events are those of R175 in that order and no other (R175, R178, R180, R190). The schedule and the
grain of a step are the model's choice (log 5, log 1). -/
def Obligations.WriteRunsToItsResult : Prop :=
  ∀ r v s b0 b1 b2 evs, s.turn = .controller → s.busy = false → s.sess = .opened → s.pollAt = .idle →
    encodeHost (.wrReg r v) = s.port → s.bridge.rxq = [] → s.inputs.events = writeScript [b0, b1, b2] ++ evs →
    ∃ t, runSteps 28 s = .next t ∧ t.busy = false ∧ t.seq = .idle ∧ t.sess = .opened ∧ t.addr = s.addr ∧
      t.rxbuf = [b0, b1, b2] ∧ t.nak0 = b0.getLsbD 0 ∧ t.nak1 = b1.getLsbD 0 ∧ t.nak2 = b2.getLsbD 0 ∧
      t.hist = s.hist ++
        [.txWrite (wrRegBurst s.cfg.nrepData s.addr r v), .rxCount 3, .rxCount 3, .rxRead [b0, b1, b2],
          .result (if b0.getLsbD 0 || b1.getLsbD 0 || b2.getLsbD 0 then 0x00000056#32 else 0x00000051#32) []] ∧
      t.pollcnt = 0#20 ∧ t.inputs.events = evs

/-- RDREG from acceptance to result in an Open session, for every count, with the three status bytes and the data bytes
queued between the send and the first sample: the data come back unchanged with the acknowledgement bytes stripped, or,
when some low bit is 1, no data and ACK; the events are those of R171 in that order and no other (R171, R173, R174,
R178, R179). The schedule and the grain of a step are the model's choice (log 5, log 1). -/
def Obligations.ReadRunsToItsResult : Prop :=
  ∀ r n s b0 b1 b2 data evs, s.turn = .controller → s.busy = false → s.sess = .opened → s.pollAt = .idle →
    encodeHost (.rdReg r n) = s.port → s.bridge.rxq = [] → data.length = n.toNat →
    s.inputs.events = readScript n.toNat (b0 :: b1 :: b2 :: data) ++ evs →
    ∃ t, runSteps (30 + 2 * n.toNat) s = .next t ∧ t.busy = false ∧ t.seq = .idle ∧ t.sess = .opened ∧
      t.addr = s.addr ∧ t.rxbuf = b0 :: b1 :: b2 :: data ∧
      t.hist = s.hist ++
        [.txWrite (rdRegBurst s.cfg.nrepData s.addr r n), .rxCount (n.toNat + 3), .rxCount (n.toNat + 3),
          .rxRead (b0 :: b1 :: b2 :: data),
          if b0.getLsbD 0 || b1.getLsbD 0 || b2.getLsbD 0 then .result 0x00000046#32 []
          else .result (BitVec.ofNat 32 (0x41 + 256 * n.toNat)) data] ∧
      t.inputs.events = evs

/-! ## Primitives -/

/-- START and STOP append their three phases of six triples and change nothing else (R150, R153, R154). -/
def Obligations.StartAndStopAppendPhases : Prop :=
  ∀ s,
    exec .start s = .next
      { s with
        cb := s.cb ++ (repeatBytes 6 [0x80#8, 0x00#8, 0x00#8] ++ repeatBytes 6 [0x80#8, 0x02#8, 0x00#8] ++
          repeatBytes 6 [0x80#8, 0x03#8, 0x00#8]) } ∧
    exec .stop s = .next
      { s with
        cb := s.cb ++ (repeatBytes 6 [0x80#8, 0x03#8, 0x00#8] ++ repeatBytes 6 [0x80#8, 0x02#8, 0x00#8] ++
          repeatBytes 6 [0x80#8, 0x00#8, 0x00#8]) }

/-- WRBYTE and RDBYTE append their bytes, each GPIO step NREP_DATA triples, and change nothing else (R150, R155,
R157). -/
def Obligations.ByteWriteAndReadAppend : Prop :=
  ∀ s,
    (∀ v, exec (.wrByte v) s = .next
      { s with
        cb := s.cb ++ (repeatBytes s.cfg.nrepData.count [0x80#8, 0x03#8, 0x00#8] ++ [0x11#8, 0x00#8, 0x00#8, v] ++
          repeatBytes s.cfg.nrepData.count [0x80#8, 0x01#8, 0x00#8] ++ [0x22#8, 0x00#8] ++ [0x87#8]) }) ∧
    (∀ w, exec (.rdByte w) s = .next
      { s with
        cb := s.cb ++ (repeatBytes s.cfg.nrepData.count [0x80#8, 0x01#8, 0x00#8] ++ [0x20#8, 0x00#8, 0x00#8] ++
          repeatBytes s.cfg.nrepData.count [0x80#8, 0x03#8, 0x00#8] ++
          [0x13#8, 0x00#8, if w then 0x00#8 else 0xFF#8] ++
          repeatBytes s.cfg.nrepData.count [0x80#8, 0x01#8, 0x00#8] ++ [0x87#8]) })

/-- START then STOP on an empty buffer: exactly 36 GPIO triples, with direction masks 0x00 ×6, 0x02 ×6, 0x03 ×12,
0x02 ×6, 0x00 ×6, and no other command (R159). -/
def Obligations.StartThenStopIsThirtySixTriples : Prop :=
  ∀ s, s.cb = [] → ∃ t, executeAll [.start, .stop] s = .next t ∧ t = { s with cb := t.cb } ∧ t.cb.length = 108 ∧
    decodeBurst t.cb = some (List.replicate 6 (.gpio 0x00#8 0x00#8) ++ List.replicate 6 (.gpio 0x02#8 0x00#8) ++
      List.replicate 12 (.gpio 0x03#8 0x00#8) ++ List.replicate 6 (.gpio 0x02#8 0x00#8) ++
      List.replicate 6 (.gpio 0x00#8 0x00#8))

/-- The table of R162: bytes, GPIO triples, shift commands, 0x87 and response bytes of each primitive. -/
def Obligations.PrimitiveLengthsAndCounts : Prop :=
  (∃ cs, decodeBurst startBytes = some cs ∧ startBytes.length = 54 ∧ (cs.filter isGpio).length = 18 ∧
    cs.filter isShift = [] ∧ (cs.filter isSendNow).length = 0 ∧ responseTotal cs = 0) ∧
  (∃ cs, decodeBurst stopBytes = some cs ∧ stopBytes.length = 54 ∧ (cs.filter isGpio).length = 18 ∧
    cs.filter isShift = [] ∧ (cs.filter isSendNow).length = 0 ∧ responseTotal cs = 0) ∧
  (∀ c v, ∃ cs, decodeBurst (wrByteBytes c v) = some cs ∧ (wrByteBytes c v).length = 7 + 6 * c.count ∧
    (cs.filter isGpio).length = 2 * c.count ∧ cs.filter isShift = [.byteOut v, .bitIn] ∧
    (cs.filter isSendNow).length = 1 ∧ responseTotal cs = 1) ∧
  (∀ c w, ∃ cs, decodeBurst (rdByteBytes c w) = some cs ∧ (rdByteBytes c w).length = 7 + 9 * c.count ∧
    (cs.filter isGpio).length = 3 * c.count ∧ cs.filter isShift = [.byteIn, .bitOut (ackByte w)] ∧
    (cs.filter isSendNow).length = 1 ∧ responseTotal cs = 1)

/-! ## The poller -/

/-- `Poll(n)` step by step: POLLCNT starts at 0; a sample that equals `n` ends the loop, any other counts, until
1000000 have been taken; then one more sample `m`, and the `m` oldest bytes of RXQ go to RXBUF. Each sample and the
retrieval is an event (R10, R190, R194). That a retrieval with fewer than `m` bytes queued returns those at once is the
model's choice (log 32). -/
def Obligations.PollSamplesThenRetrieves : Prop :=
  ∀ n s,
    (s.pollAt = .idle → exec (.poll n) s = .next { s with pollcnt := 0#20, expect := n, pollAt := .sample }) ∧
    (s.pollAt = .sample → s.pollcnt.toNat < 1000000 → s.bridge.rxq.length = n →
      exec (.poll n) s = .next { s with hist := s.hist ++ [.rxCount n], pollAt := .count }) ∧
    (s.pollAt = .sample → s.pollcnt.toNat < 1000000 → s.bridge.rxq.length ≠ n →
      exec (.poll n) s = .next
        { s with hist := s.hist ++ [.rxCount s.bridge.rxq.length], pollcnt := s.pollcnt + 1#20 }) ∧
    (s.pollAt = .sample → 1000000 ≤ s.pollcnt.toNat → exec (.poll n) s = .next { s with pollAt := .count }) ∧
    (s.pollAt = .count → exec (.poll n) s = .next
      { s with hist := s.hist ++ [.rxCount s.bridge.rxq.length], pollAt := .retrieve s.bridge.rxq.length }) ∧
    (∀ m, s.pollAt = .retrieve m → exec (.poll n) s = .next
      { s with
        hist := s.hist ++ [.rxRead (s.bridge.rxq.take m)]
        rxbuf := s.bridge.rxq.take m, bridge := { s.bridge with rxq := s.bridge.rxq.drop m }, pollAt := .idle })

/-- The test is equality, not "at least": once a poll in progress has `q > n` it can never match and runs to
exhaustion: every step that is not a reset keeps it polling with the queue no shorter; a step of the controller counts
one more sample while fewer than 1000000 have been counted, and ends the loop when they have; a step of another agent
counts none (derived from R190, R191 and R64). Premise: no other session acts in the step: R221's duty, which R220 asks
for as a named premise. That another session may act at any time and shorten the queue is the model's choice (log 31). -/
def Obligations.PollNeverMatchesAboveItsCount : Prop :=
  ∀ s t, Undisturbed s → step s = .next t → s.busy = true → pollsHere s = true → s.pollAt = .sample →
    s.expect < s.bridge.rxq.length → ¬ (s.turn = .env ∧ nextEvent s = .reset) →
    t.busy = true ∧ pollsHere t = true ∧ t.expect = s.expect ∧ s.bridge.rxq.length ≤ t.bridge.rxq.length ∧
      (s.turn = .controller → s.pollcnt.toNat < 1000000 →
        t.pollAt = .sample ∧ t.pollcnt.toNat = s.pollcnt.toNat + 1) ∧
      (s.turn = .controller → 1000000 ≤ s.pollcnt.toNat → t.pollAt = .count ∧ t.pollcnt = s.pollcnt) ∧
      (s.turn ≠ .controller → t.pollAt = .sample ∧ t.pollcnt = s.pollcnt)

/-- In every step a poll in progress stays in a SEQ state that polls, POLLCNT is at most 1000000, and the count about to
be retrieved is at most what RXQ holds, so that `RxRead` never returns fewer bytes (R30, R63). Premise: no other session
reads the queue in the step (R220, R221, log 31). -/
def Obligations.PollInvariantKept : Prop :=
  (∀ s t, Undisturbed s → PollInv s → step s = .next t → PollInv t) ∧
    (∀ n m s, PollInv s → s.pollAt = .retrieve m → ∃ t, exec (.poll n) s = .next t ∧ t.rxbuf.length = m ∧
      t.rxbuf ++ t.bridge.rxq = s.bridge.rxq)

/-! ## Bridge commands -/

/-- GPIO d v sets the direction and the level of the bank and produces no response; as a step between the four emitted
masks it is a start condition from 0x00 to 0x02, a stop condition from 0x02 to 0x00, and neither otherwise, and after a
shift command, which leaves SCL low, it is neither (R161, R227, R229). Reading the lines as commanded is DEDUCED
(log 25). -/
def Obligations.GpioSetsPinsAndConditions : Prop :=
  (∀ d v s, exec (.gpio d v) s = .next
    { s with
      bridge := { s.bridge with dir := d, val := v, scl := sclHigh d v }
      bus := s.bus ++
        busEventOf s.bridge.scl (sdaHigh s.bridge.dir s.bridge.val) (sclHigh d v) (sdaHigh d v) }) ∧
  (∀ m ∈ [0x00#8, 0x01#8, 0x02#8, 0x03#8], ∀ m' ∈ [0x00#8, 0x01#8, 0x02#8, 0x03#8],
    busEventOf (sclHigh m 0x00#8) (sdaHigh m 0x00#8) (sclHigh m' 0x00#8) (sdaHigh m' 0x00#8) =
      if m = 0x00#8 ∧ m' = 0x02#8 then [.start] else if m = 0x02#8 ∧ m' = 0x00#8 then [.stop] else []) ∧
  (∀ i d v s t, isShift i = true → exec i s = .next t →
    exec (.gpio d v) t = .next { t with bridge := { t.bridge with dir := d, val := v, scl := sclHigh d v } })

/-- BYTE_OUT and BIT_OUT put their bits on the bus, bit 7 of BIT_OUT's byte, leave SCL low, and change nothing else of
the bridge (R104, R107, R227, R229). -/
def Obligations.ShiftOutsPutBitsOnBus : Prop :=
  ∀ s,
    (∀ v, exec (.byteOut v) s = .next
      { s with bus := s.bus ++ [.byteOut v], bridge := { s.bridge with scl := false } }) ∧
    (∀ b, exec (.bitOut b) s = .next
      { s with bus := s.bus ++ [.bitOut (b.getLsbD 7)], bridge := { s.bridge with scl := false } })

/-- BIT_IN queues exactly one response byte whose bit 0 is the level of SDA sampled (R106, R224): the level the bank
drives, or the peer's. Its other bits are free (U3); SCL is left low (R229). That a driven line reads as the bank drives
it is DEDUCED (log 11). -/
def Obligations.BitInQueuesSampledLevel : Prop :=
  ∀ s,
    (∃ b n d, exec .bitIn s = .next
      { s with
        bridge := { s.bridge with resp := s.bridge.resp ++ [b], scl := false }, bus := s.bus ++ [.bitIn (b.getLsbD 0)]
        inputs := n, draws := d }) ∧
    (∀ l ls, s.bridge.dir.getLsbD 1 = false → s.inputs.levels = l :: ls → ∃ b d, b.getLsbD 0 = l ∧
      exec .bitIn s = .next
        { s with
          bridge := { s.bridge with resp := s.bridge.resp ++ [b], scl := false }, bus := s.bus ++ [.bitIn l]
          inputs := { s.inputs with levels := ls }, draws := d }) ∧
    (s.bridge.dir.getLsbD 1 = true → ∃ b d, b.getLsbD 0 = s.bridge.val.getLsbD 1 ∧
      exec .bitIn s = .next
        { s with
          bridge := { s.bridge with resp := s.bridge.resp ++ [b], scl := false }
          bus := s.bus ++ [.bitIn (s.bridge.val.getLsbD 1)]
          draws := d })

/-- BYTE_IN queues exactly one response byte, the eight levels sampled, first sample in bit 7: with SDA released and a
peer that sends `b` most significant bit first, it is `b` (R105, R225, R67 (a)); SCL is left low (R229). -/
def Obligations.ByteInQueuesEightSamples : Prop :=
  ∀ s,
    (∃ b n d, exec .byteIn s = .next
      { s with
        bridge := { s.bridge with resp := s.bridge.resp ++ [b], scl := false }, bus := s.bus ++ [.byteIn b]
        inputs := n, draws := d }) ∧
    (∀ b ls, s.bridge.dir.getLsbD 1 = false → s.inputs.levels = levelsOf b ++ ls →
      exec .byteIn s = .next
        { s with
          bridge := { s.bridge with resp := s.bridge.resp ++ [b], scl := false }, bus := s.bus ++ [.byteIn b]
          inputs := { s.inputs with levels := ls } })

/-- The clock, loopback and divider commands change one setting each and produce no response; the divider is low byte
first (R108, R109, R227). -/
def Obligations.SettingCommandsChangeOneSetting : Prop :=
  ∀ s,
    exec .clkNoDiv5 s =
      .next { s with bridge := { s.bridge with settings := { s.bridge.settings with noDiv5 := true } } } ∧
    exec .clkNoAdapt s =
      .next { s with bridge := { s.bridge with settings := { s.bridge.settings with noAdapt := true } } } ∧
    exec .clkPhase s =
      .next { s with bridge := { s.bridge with settings := { s.bridge.settings with phase := true } } } ∧
    exec .loopOff s =
      .next { s with bridge := { s.bridge with settings := { s.bridge.settings with loopOff := true } } } ∧
    (∀ d : BitVec 16, exec (.setDiv (d.extractLsb' 0 8) (d.extractLsb' 8 8)) s =
      .next { s with bridge := { s.bridge with settings := { s.bridge.settings with divider := d } } })

/-- SEND_NOW makes what was produced before it visible, behind what is visible already (R82, R228). That it does so at
once is the model's choice (log 12). -/
def Obligations.SendNowMakesResponsesVisible : Prop :=
  ∀ s, exec .sendNow s = .next
    { s with bridge := { s.bridge with rxq := s.bridge.rxq ++ s.bridge.resp, resp := [] } }

/-- In the clocked-shift mode a sentinel produces `[0xFA, s]` and does nothing else (R112, R226); in another mode its
response is a free value (log 13). -/
def Obligations.SentinelsEcho : Prop :=
  ∀ s,
    (s.bridge.settings.mode = .clockedShift →
      exec .sync1 s = .next { s with bridge := { s.bridge with resp := s.bridge.resp ++ [0xFA#8, 0xAA#8] } } ∧
      exec .sync2 s = .next { s with bridge := { s.bridge with resp := s.bridge.resp ++ [0xFA#8, 0xAB#8] } }) ∧
    (s.bridge.settings.mode = .neutral →
      exec .sync1 s = .next
        { s with
          bridge := { s.bridge with resp := s.bridge.resp ++ Config.strayReply s.draws }, draws := s.draws + 1 } ∧
      exec .sync2 s = .next
        { s with
          bridge := { s.bridge with resp := s.bridge.resp ++ Config.strayReply s.draws }, draws := s.draws + 1 })

/-- How many response bytes each bridge command produces: BIT_IN and BYTE_IN one, a sentinel in the clocked-shift mode
two, every other none; what was produced before stays in front, in order (R114, R223, R227). -/
def Obligations.ResponsesPerCommand : Prop :=
  ∀ i s t, i.level = .bridgeCommand → s.bridge.settings.mode = .clockedShift → exec i s = .next t →
    ∃ new, t.bridge.rxq ++ t.bridge.resp = s.bridge.rxq ++ s.bridge.resp ++ new ∧ new.length = responseCount i

/-- The bridge running WRREG's burst from released pins puts the frame of R177 on the bus, with the peer's three levels
in the acknowledge slots, leaves the lines released, and makes three response bytes visible, bit 0 of each the level
sampled in its slot (R156, R177, R223, R224). That the bytes are visible as soon as the bridge has run SEND_NOW, and
that the bus history reads the lines as commanded, are the model's choices (log 12, log 25). -/
def Obligations.WriteBurstPutsFrameOnBus : Prop :=
  ∀ c a r v s l0 l1 l2 ls, s.bridge.dir = 0x00#8 → s.bridge.val = 0x00#8 →
    s.inputs.levels = l0 :: l1 :: l2 :: ls →
    ∃ cs t b0 b1 b2, decodeBurst (wrRegBurst c a r v) = some cs ∧ executeAll cs s = .next t ∧
      t.bus = s.bus ++ wrRegFrame a r v l0 l1 l2 ∧
      t.bridge.dir = 0x00#8 ∧ t.bridge.val = 0x00#8 ∧ t.bridge.scl = true ∧
      t.bridge.rxq = s.bridge.rxq ++ s.bridge.resp ++ [b0, b1, b2] ∧ t.bridge.resp = [] ∧
      b0.getLsbD 0 = l0 ∧ b1.getLsbD 0 = l1 ∧ b2.getLsbD 0 = l2 ∧ t.inputs.levels = ls

/-- The bridge running RDREG's burst, for every count, from released pins puts the frame of R177 on the bus, with a
repeated start and a nak after the last byte only, and makes the three status bytes and the peer's data bytes visible,
in order and unchanged (R158, R173, R177, R223, R225). That the bytes are visible as soon as the bridge has run
SEND_NOW, and that the bus history reads the lines as commanded, are the model's choices (log 12, log 25). -/
def Obligations.ReadBurstPutsFrameOnBus : Prop :=
  ∀ c a r n s l0 l1 l2 data ls, s.bridge.dir = 0x00#8 → s.bridge.val = 0x00#8 → data.length = n.toNat →
    s.inputs.levels = l0 :: l1 :: l2 :: (levelsOfAll data ++ ls) →
    ∃ cs t b0 b1 b2, decodeBurst (rdRegBurst c a r n) = some cs ∧ executeAll cs s = .next t ∧
      t.bus = s.bus ++ rdRegFrame a r l0 l1 l2 data ∧
      t.bridge.dir = 0x00#8 ∧ t.bridge.val = 0x00#8 ∧ t.bridge.scl = true ∧
      t.bridge.rxq = s.bridge.rxq ++ s.bridge.resp ++ ([b0, b1, b2] ++ data) ∧ t.bridge.resp = [] ∧
      b0.getLsbD 0 = l0 ∧ b1.getLsbD 0 = l1 ∧ b2.getLsbD 0 = l2 ∧ t.inputs.levels = ls

/-! ## The whole machine -/

/-- Where the sequencer is in a state of its operation, or idle, no step faults and none is refused (R28, R181). That
`TxWrite` and `Ctrl` complete in their step, and the one fault, are the model's choices (log 18, log 23). -/
def Obligations.NoStepStops : Prop :=
  ∀ s, SequencerInv s → ∃ t, step s = .next t

/-- Every step keeps the sequencer in its micro-program, IDLE when BUSY = 0 (R28), and HANDLE along it; so HANDLE = SESS
whenever BUSY = 0 (R21, R22). Every step keeps the bridge held while HANDLE is set (R38 (b)). Under the environment's
duty (R220, R221), every step but a reset in mid-operation keeps at most one session holding the bridge, and while HANDLE
is set the environment touches nothing of the bridge but to bring response bytes. Another session's use, duty or not,
takes effect on the bridge and raises no failure: the block is as before (R255); how much of the bridge it may change is
the model's choice (log 31). -/
def Obligations.HandleFollowsSession : Prop :=
  (∀ s t, BlockInv s → step s = .next t → BlockInv t) ∧
    (∀ s, BlockInv s → s.busy = false → (s.handle = true ↔ s.sess = .opened)) ∧
    (∀ s t, HoldInv s → step s = .next t → HoldInv t) ∧
    (∀ s t, ExclusiveHold s → OneHolderInv s → ¬ (s.turn = .env ∧ nextEvent s = .reset ∧ s.busy = true) →
      step s = .next t → OneHolderInv t) ∧
    (∀ s t, ExclusiveHold s → HoldInv s → s.handle = true → s.turn = .env → ¬ (nextEvent s = .reset ∧ s.busy = true) →
      step s = .next t →
      t.bridge = { s.bridge with rxq := t.bridge.rxq, resp := t.bridge.resp } ∧ s.bridge.rxq <+: t.bridge.rxq) ∧
    (∀ s b, s.turn = .env → nextEvent s = .otherSession b →
      step s = .next { takeEvent s with bridge := { b with held := s.bridge.held } })

/-- Every step keeps EXPECT at `A_CNT + 3` for RDREG and 3 for WRREG from the send to the result (R31, R173). -/
def Obligations.ExpectedCountKept : Prop :=
  ∀ s t, ExpectInv s → step s = .next t → ExpectInv t

/-- The invariants hold after reset (R21, R28, R38, R40). POLLCNT is unspecified after reset, so that PollInv holds
there is the model's choice of 0 for it (log 2); the bridge of HoldInv is not needed, since HANDLE is clear; that no
session holds the bridge then is the model's choice (log 3). -/
def Obligations.InvariantsHoldAtReset : Prop :=
  BlockInv State.reset ∧ HoldInv State.reset ∧ OneHolderInv State.reset ∧ PollInv State.reset ∧
    ExpectInv State.reset ∧ BuildInv State.reset ∧ DisciplineInv State.reset

/-- Who writes what (R41, R23, R25, R26, R27, R33, R213): SESS is opened only by the last act of an OPEN and closed only
by CLOSE or reset; ADDR is written only by that act and by SETADDR; CB only by the build of a transaction; RXBUF only by
the retrieval of a poll; OP and the operand latches only by the acceptance of a legal word, so that they are constant
until the result; NAK only by the validator of a transaction, which ends it. Reset may change each of them. -/
def Obligations.RegistersHaveTheirWriters : Prop :=
  ∀ s t, SequencerInv s → step s = .next t → ¬ (s.turn = .env ∧ nextEvent s = .reset) →
    (s.sess = .closed → t.sess = .opened → s.busy = true ∧ s.op = .openOp ∧ s.seq = .oDone ∧ t.resOk = true) ∧
    (s.sess = .opened → t.sess = .closed → s.busy = true ∧ s.op = .closeOp ∧ s.seq = .cDone ∧ t.resOk = true) ∧
    (t.addr ≠ s.addr → s.busy = true ∧ (s.seq = .oDone ∨ s.seq = .aSet)) ∧
    (t.cb ≠ s.cb → s.busy = true ∧ (s.op = .rdRegOp ∨ s.op = .wrRegOp) ∧ ∃ p, s.seq = .tBuild p) ∧
    (t.rxbuf ≠ s.rxbuf → s.busy = true ∧ pollsHere s = true ∧ ∃ m, s.pollAt = .retrieve m) ∧
    (t.op ≠ s.op ∨ t.aAddr ≠ s.aAddr ∨ t.aReg ≠ s.aReg ∨ t.aVal ≠ s.aVal ∨ t.aCnt ≠ s.aCnt →
      s.turn = .controller ∧ s.busy = false ∧ t.busy = true ∧
        ∃ w i, s.port = some w ∧ decodeHost w = .ok i) ∧
    (t.nak0 ≠ s.nak0 ∨ t.nak1 ≠ s.nak1 ∨ t.nak2 ≠ s.nak2 →
      s.turn = .controller ∧ s.busy = true ∧ (s.op = .rdRegOp ∨ s.op = .wrRegOp) ∧ s.seq = .tValid ∧
        t.busy = false)

/-- Events, once in the history, are never altered or recalled, and each stands where the rules put it (R10, R35 (2),
R61, R84, R133, R137, R172, R190): a step adds at most one event; a burst only where OPEN or a transaction sends one,
and then it is that position's, the whole of CB in a transaction; a control event only where OPEN or CLOSE sends one; a
sample only at the drain and in a poll; a retrieval only at the end of a poll; a result only as the operation ends. A
position that sends, does. A transaction goes over to its response only by sending the whole of CB, and sends no other
burst until its result: exactly one `TxWrite` per transaction that gets so far. -/
def Obligations.HistoriesOnlyGrow : Prop :=
  ∀ s t, step s = .next t →
    (t.hist = s.hist ∨ ∃ e, t.hist = s.hist ++ [e]) ∧
    (∀ bs, t.hist = s.hist ++ [.txWrite bs] → s.turn = .controller ∧ s.busy = true ∧ burstAt s = some bs) ∧
    (∀ e, t.hist = s.hist ++ [.ctrl e] → s.turn = .controller ∧ s.busy = true ∧ ctrlAt s = some e) ∧
    (∀ n, t.hist = s.hist ++ [.rxCount n] → s.turn = .controller ∧ s.busy = true ∧ n = s.bridge.rxq.length ∧
      (s.op = .openOp ∧ s.seq = .oDrain ∨
        pollsHere s = true ∧ (s.pollAt = .sample ∧ s.pollcnt.toNat < 1000000 ∨ s.pollAt = .count))) ∧
    (∀ bs, t.hist = s.hist ++ [.rxRead bs] → s.turn = .controller ∧ s.busy = true ∧ pollsHere s = true ∧
      ∃ m, s.pollAt = .retrieve m ∧ bs = s.bridge.rxq.take m) ∧
    (∀ r d, t.hist = s.hist ++ [.result r d] → s.turn = .controller ∧ t.busy = false ∧ r = t.rsp ∧ d = t.resData) ∧
    (∀ bs, s.turn = .controller → s.busy = true → burstAt s = some bs → t.hist = s.hist ++ [.txWrite bs]) ∧
    (∀ e, s.turn = .controller → s.busy = true → ctrlAt s = some e → t.hist = s.hist ++ [.ctrl e]) ∧
    (sent s.seq = false → sent t.seq = true → t.hist = s.hist ++ [.txWrite s.cb]) ∧
    (s.busy = true → sent s.seq = true → t.busy = true → sent t.seq = true ∧ t.txh = s.txh)

/-- Only the retrieval of a poll removes bytes from RXQ; every other step but a reset in mid-operation leaves what is
queued where it is and may append behind it (R38 (a), R63, R64). Premise: no other session reads the queue in the step
(R220, R221, log 31). -/
def Obligations.OnlyRetrievalShortensQueue : Prop :=
  ∀ s t, Undisturbed s → step s = .next t → ¬ (s.turn = .env ∧ nextEvent s = .reset ∧ s.busy = true) →
    ¬ (s.turn = .controller ∧ s.busy = true ∧ pollsHere s = true ∧ ∃ m, s.pollAt = .retrieve m) →
    s.bridge.rxq <+: t.bridge.rxq

/-- Exactly one result ends an operation: BUSY falls only with one result delivered, or by reset; and a result is
delivered only into an idle block (R91, R210, R242). -/
def Obligations.OneResultEndsOperation : Prop :=
  ∀ s t, step s = .next t →
    (s.busy = true → t.busy = false →
      t.resh = s.resh ++ [(t.rsp, t.resData)] ∨ (s.turn = .env ∧ nextEvent s = .reset ∧ t.resh = s.resh)) ∧
    (t.resh ≠ s.resh → t.resh = s.resh ++ [(t.rsp, t.resData)] ∧ t.busy = false ∧ t.seq = .idle ∧ t.resValid = true)

/-- The build parameters are never written, and DIV stays hardwired to CLKDIV (R24, R36). -/
def Obligations.DividerStaysHardwired : Prop :=
  ∀ s t, step s = .next t → t.cfg = s.cfg ∧ (s.div = s.cfg.clkdiv → t.div = t.cfg.clkdiv)

/-- RES_DATA always has RES_LEN bytes (R34). -/
def Obligations.ResultLengthMatchesData : Prop :=
  ∀ s t, s.resData.length = s.resLen.toNat → step s = .next t → t.resData.length = t.resLen.toNat

/-- Reset, decided or drawn, puts the registers that have reset values at them and is silent: no control event, no
burst, no result of an abandoned operation; the bridge is as it was unless an operation was in progress (R40, R240,
R241, R242). -/
def Obligations.ResetIsSilent : Prop :=
  ∀ s, s.turn = .env → nextEvent s = .reset → ∃ t, step s = .next t ∧
    t.sess = .closed ∧ t.div = s.cfg.clkdiv ∧ t.cb = [] ∧ t.rxbuf = [] ∧ t.seq = .idle ∧ t.busy = false ∧
    t.resOk = false ∧ t.resCause = .none ∧ t.resLen = 0#8 ∧ t.resValid = false ∧
    t.hist = s.hist ∧ t.txh = s.txh ∧ t.ctrlh = s.ctrlh ∧ t.resh = s.resh ∧ t.cfg = s.cfg ∧
    (s.busy = false → t.bridge = s.bridge)

/-- The state after reset has the values R40 gives, and nothing has been sent (R40, R241). -/
def Obligations.ResetStateHasSpecValues : Prop :=
  State.reset.sess = .closed ∧ State.reset.div = 0x005F#16 ∧ State.reset.cb = [] ∧ State.reset.cblen = 0 ∧
    State.reset.rxbuf = [] ∧ State.reset.rxlen = 0 ∧ State.reset.seq = .idle ∧ State.reset.busy = false ∧
    State.reset.resOk = false ∧ State.reset.resCause = .none ∧ State.reset.resLen = 0#8 ∧
    State.reset.resValid = false ∧ State.reset.hist = []
end

