-- ==== Sys2Proof/Laws/State.lean ====
section
/-! SUPPORT. State: what each named operation does to each field, one lemma per field per update, true by rfl; no later
proof need unfold a record update. -/

namespace Sys2Proof.Machine

section
variable (q : Seq) (s : State)

@[simp] theorem moveTo_cfg : (moveTo q s).cfg = s.cfg := rfl
@[simp] theorem moveTo_sess : (moveTo q s).sess = s.sess := rfl
@[simp] theorem moveTo_addr : (moveTo q s).addr = s.addr := rfl
@[simp] theorem moveTo_div : (moveTo q s).div = s.div := rfl
@[simp] theorem moveTo_handle : (moveTo q s).handle = s.handle := rfl
@[simp] theorem moveTo_cb : (moveTo q s).cb = s.cb := rfl
@[simp] theorem moveTo_rxbuf : (moveTo q s).rxbuf = s.rxbuf := rfl
@[simp] theorem moveTo_op : (moveTo q s).op = s.op := rfl
@[simp] theorem moveTo_aAddr : (moveTo q s).aAddr = s.aAddr := rfl
@[simp] theorem moveTo_aReg : (moveTo q s).aReg = s.aReg := rfl
@[simp] theorem moveTo_aVal : (moveTo q s).aVal = s.aVal := rfl
@[simp] theorem moveTo_aCnt : (moveTo q s).aCnt = s.aCnt := rfl
@[simp] theorem moveTo_seq : (moveTo q s).seq = q := rfl
@[simp] theorem moveTo_idx : (moveTo q s).idx = s.idx := rfl
@[simp] theorem moveTo_pollcnt : (moveTo q s).pollcnt = s.pollcnt := rfl
@[simp] theorem moveTo_expect : (moveTo q s).expect = s.expect := rfl
@[simp] theorem moveTo_busy : (moveTo q s).busy = s.busy := rfl
@[simp] theorem moveTo_pollAt : (moveTo q s).pollAt = s.pollAt := rfl
@[simp] theorem moveTo_nak0 : (moveTo q s).nak0 = s.nak0 := rfl
@[simp] theorem moveTo_nak1 : (moveTo q s).nak1 = s.nak1 := rfl
@[simp] theorem moveTo_nak2 : (moveTo q s).nak2 = s.nak2 := rfl
@[simp] theorem moveTo_resOk : (moveTo q s).resOk = s.resOk := rfl
@[simp] theorem moveTo_resCause : (moveTo q s).resCause = s.resCause := rfl
@[simp] theorem moveTo_resOpc : (moveTo q s).resOpc = s.resOpc := rfl
@[simp] theorem moveTo_resLen : (moveTo q s).resLen = s.resLen := rfl
@[simp] theorem moveTo_resData : (moveTo q s).resData = s.resData := rfl
@[simp] theorem moveTo_resValid : (moveTo q s).resValid = s.resValid := rfl
@[simp] theorem moveTo_port : (moveTo q s).port = s.port := rfl
@[simp] theorem moveTo_bridge : (moveTo q s).bridge = s.bridge := rfl
@[simp] theorem moveTo_turn : (moveTo q s).turn = s.turn := rfl
@[simp] theorem moveTo_inputs : (moveTo q s).inputs = s.inputs := rfl
@[simp] theorem moveTo_draws : (moveTo q s).draws = s.draws := rfl
@[simp] theorem moveTo_hist : (moveTo q s).hist = s.hist := rfl
@[simp] theorem moveTo_txh : (moveTo q s).txh = s.txh := rfl
@[simp] theorem moveTo_ctrlh : (moveTo q s).ctrlh = s.ctrlh := rfl
@[simp] theorem moveTo_resh : (moveTo q s).resh = s.resh := rfl
@[simp] theorem moveTo_bus : (moveTo q s).bus = s.bus := rfl

end

section
variable (s : State)

@[simp] theorem cbClear_cfg : (cbClear s).cfg = s.cfg := rfl
@[simp] theorem cbClear_sess : (cbClear s).sess = s.sess := rfl
@[simp] theorem cbClear_addr : (cbClear s).addr = s.addr := rfl
@[simp] theorem cbClear_div : (cbClear s).div = s.div := rfl
@[simp] theorem cbClear_handle : (cbClear s).handle = s.handle := rfl
@[simp] theorem cbClear_cb : (cbClear s).cb = [] := rfl
@[simp] theorem cbClear_rxbuf : (cbClear s).rxbuf = s.rxbuf := rfl
@[simp] theorem cbClear_op : (cbClear s).op = s.op := rfl
@[simp] theorem cbClear_aAddr : (cbClear s).aAddr = s.aAddr := rfl
@[simp] theorem cbClear_aReg : (cbClear s).aReg = s.aReg := rfl
@[simp] theorem cbClear_aVal : (cbClear s).aVal = s.aVal := rfl
@[simp] theorem cbClear_aCnt : (cbClear s).aCnt = s.aCnt := rfl
@[simp] theorem cbClear_seq : (cbClear s).seq = s.seq := rfl
@[simp] theorem cbClear_idx : (cbClear s).idx = s.idx := rfl
@[simp] theorem cbClear_pollcnt : (cbClear s).pollcnt = s.pollcnt := rfl
@[simp] theorem cbClear_expect : (cbClear s).expect = s.expect := rfl
@[simp] theorem cbClear_busy : (cbClear s).busy = s.busy := rfl
@[simp] theorem cbClear_pollAt : (cbClear s).pollAt = s.pollAt := rfl
@[simp] theorem cbClear_nak0 : (cbClear s).nak0 = s.nak0 := rfl
@[simp] theorem cbClear_nak1 : (cbClear s).nak1 = s.nak1 := rfl
@[simp] theorem cbClear_nak2 : (cbClear s).nak2 = s.nak2 := rfl
@[simp] theorem cbClear_resOk : (cbClear s).resOk = s.resOk := rfl
@[simp] theorem cbClear_resCause : (cbClear s).resCause = s.resCause := rfl
@[simp] theorem cbClear_resOpc : (cbClear s).resOpc = s.resOpc := rfl
@[simp] theorem cbClear_resLen : (cbClear s).resLen = s.resLen := rfl
@[simp] theorem cbClear_resData : (cbClear s).resData = s.resData := rfl
@[simp] theorem cbClear_resValid : (cbClear s).resValid = s.resValid := rfl
@[simp] theorem cbClear_port : (cbClear s).port = s.port := rfl
@[simp] theorem cbClear_bridge : (cbClear s).bridge = s.bridge := rfl
@[simp] theorem cbClear_turn : (cbClear s).turn = s.turn := rfl
@[simp] theorem cbClear_inputs : (cbClear s).inputs = s.inputs := rfl
@[simp] theorem cbClear_draws : (cbClear s).draws = s.draws := rfl
@[simp] theorem cbClear_hist : (cbClear s).hist = s.hist := rfl
@[simp] theorem cbClear_txh : (cbClear s).txh = s.txh := rfl
@[simp] theorem cbClear_ctrlh : (cbClear s).ctrlh = s.ctrlh := rfl
@[simp] theorem cbClear_resh : (cbClear s).resh = s.resh := rfl
@[simp] theorem cbClear_bus : (cbClear s).bus = s.bus := rfl

end

section
variable (bs : List Byte) (s : State)

@[simp] theorem cbAppend_cfg : (cbAppend bs s).cfg = s.cfg := rfl
@[simp] theorem cbAppend_sess : (cbAppend bs s).sess = s.sess := rfl
@[simp] theorem cbAppend_addr : (cbAppend bs s).addr = s.addr := rfl
@[simp] theorem cbAppend_div : (cbAppend bs s).div = s.div := rfl
@[simp] theorem cbAppend_handle : (cbAppend bs s).handle = s.handle := rfl
@[simp] theorem cbAppend_cb : (cbAppend bs s).cb = s.cb ++ bs := rfl
@[simp] theorem cbAppend_rxbuf : (cbAppend bs s).rxbuf = s.rxbuf := rfl
@[simp] theorem cbAppend_op : (cbAppend bs s).op = s.op := rfl
@[simp] theorem cbAppend_aAddr : (cbAppend bs s).aAddr = s.aAddr := rfl
@[simp] theorem cbAppend_aReg : (cbAppend bs s).aReg = s.aReg := rfl
@[simp] theorem cbAppend_aVal : (cbAppend bs s).aVal = s.aVal := rfl
@[simp] theorem cbAppend_aCnt : (cbAppend bs s).aCnt = s.aCnt := rfl
@[simp] theorem cbAppend_seq : (cbAppend bs s).seq = s.seq := rfl
@[simp] theorem cbAppend_idx : (cbAppend bs s).idx = s.idx := rfl
@[simp] theorem cbAppend_pollcnt : (cbAppend bs s).pollcnt = s.pollcnt := rfl
@[simp] theorem cbAppend_expect : (cbAppend bs s).expect = s.expect := rfl
@[simp] theorem cbAppend_busy : (cbAppend bs s).busy = s.busy := rfl
@[simp] theorem cbAppend_pollAt : (cbAppend bs s).pollAt = s.pollAt := rfl
@[simp] theorem cbAppend_nak0 : (cbAppend bs s).nak0 = s.nak0 := rfl
@[simp] theorem cbAppend_nak1 : (cbAppend bs s).nak1 = s.nak1 := rfl
@[simp] theorem cbAppend_nak2 : (cbAppend bs s).nak2 = s.nak2 := rfl
@[simp] theorem cbAppend_resOk : (cbAppend bs s).resOk = s.resOk := rfl
@[simp] theorem cbAppend_resCause : (cbAppend bs s).resCause = s.resCause := rfl
@[simp] theorem cbAppend_resOpc : (cbAppend bs s).resOpc = s.resOpc := rfl
@[simp] theorem cbAppend_resLen : (cbAppend bs s).resLen = s.resLen := rfl
@[simp] theorem cbAppend_resData : (cbAppend bs s).resData = s.resData := rfl
@[simp] theorem cbAppend_resValid : (cbAppend bs s).resValid = s.resValid := rfl
@[simp] theorem cbAppend_port : (cbAppend bs s).port = s.port := rfl
@[simp] theorem cbAppend_bridge : (cbAppend bs s).bridge = s.bridge := rfl
@[simp] theorem cbAppend_turn : (cbAppend bs s).turn = s.turn := rfl
@[simp] theorem cbAppend_inputs : (cbAppend bs s).inputs = s.inputs := rfl
@[simp] theorem cbAppend_draws : (cbAppend bs s).draws = s.draws := rfl
@[simp] theorem cbAppend_hist : (cbAppend bs s).hist = s.hist := rfl
@[simp] theorem cbAppend_txh : (cbAppend bs s).txh = s.txh := rfl
@[simp] theorem cbAppend_ctrlh : (cbAppend bs s).ctrlh = s.ctrlh := rfl
@[simp] theorem cbAppend_resh : (cbAppend bs s).resh = s.resh := rfl
@[simp] theorem cbAppend_bus : (cbAppend bs s).bus = s.bus := rfl

end

section
variable (ok : Bool) (c : Cause) (o : BitVec 4) (d : List Byte) (s : State)

@[simp] theorem report_cfg : (report ok c o d s).cfg = s.cfg := rfl
@[simp] theorem report_sess : (report ok c o d s).sess = s.sess := rfl
@[simp] theorem report_addr : (report ok c o d s).addr = s.addr := rfl
@[simp] theorem report_div : (report ok c o d s).div = s.div := rfl
@[simp] theorem report_handle : (report ok c o d s).handle = s.handle := rfl
@[simp] theorem report_cb : (report ok c o d s).cb = s.cb := rfl
@[simp] theorem report_rxbuf : (report ok c o d s).rxbuf = s.rxbuf := rfl
@[simp] theorem report_op : (report ok c o d s).op = s.op := rfl
@[simp] theorem report_aAddr : (report ok c o d s).aAddr = s.aAddr := rfl
@[simp] theorem report_aReg : (report ok c o d s).aReg = s.aReg := rfl
@[simp] theorem report_aVal : (report ok c o d s).aVal = s.aVal := rfl
@[simp] theorem report_aCnt : (report ok c o d s).aCnt = s.aCnt := rfl
@[simp] theorem report_seq : (report ok c o d s).seq = .idle := rfl
@[simp] theorem report_idx : (report ok c o d s).idx = s.idx := rfl
@[simp] theorem report_pollcnt : (report ok c o d s).pollcnt = s.pollcnt := rfl
@[simp] theorem report_expect : (report ok c o d s).expect = s.expect := rfl
@[simp] theorem report_busy : (report ok c o d s).busy = false := rfl
@[simp] theorem report_pollAt : (report ok c o d s).pollAt = s.pollAt := rfl
@[simp] theorem report_nak0 : (report ok c o d s).nak0 = s.nak0 := rfl
@[simp] theorem report_nak1 : (report ok c o d s).nak1 = s.nak1 := rfl
@[simp] theorem report_nak2 : (report ok c o d s).nak2 = s.nak2 := rfl
@[simp] theorem report_resOk : (report ok c o d s).resOk = ok := rfl
@[simp] theorem report_resCause : (report ok c o d s).resCause = c := rfl
@[simp] theorem report_resOpc : (report ok c o d s).resOpc = o := rfl
@[simp] theorem report_resLen : (report ok c o d s).resLen = BitVec.ofNat 8 d.length := rfl
@[simp] theorem report_resData : (report ok c o d s).resData = d := rfl
@[simp] theorem report_resValid : (report ok c o d s).resValid = true := rfl
@[simp] theorem report_port : (report ok c o d s).port = s.port := rfl
@[simp] theorem report_bridge : (report ok c o d s).bridge = s.bridge := rfl
@[simp] theorem report_turn : (report ok c o d s).turn = s.turn := rfl
@[simp] theorem report_inputs : (report ok c o d s).inputs = s.inputs := rfl
@[simp] theorem report_draws : (report ok c o d s).draws = s.draws := rfl
@[simp] theorem report_hist : (report ok c o d s).hist = s.hist ++ [.result (rspWord ok c o (BitVec.ofNat 8 d.length)) d] := rfl
@[simp] theorem report_txh : (report ok c o d s).txh = s.txh := by
  rw [State.txh, report_hist, List.filterMap_append]; simp [State.txh, Event.burst?]
@[simp] theorem report_ctrlh : (report ok c o d s).ctrlh = s.ctrlh := by
  rw [State.ctrlh, report_hist, List.filterMap_append]; simp [State.ctrlh, Event.ctrl?]
@[simp] theorem report_resh : (report ok c o d s).resh = s.resh ++ [(rspWord ok c o (BitVec.ofNat 8 d.length), d)] := by
  rw [State.resh, report_hist, List.filterMap_append]; simp [State.resh, Event.result?]
@[simp] theorem report_bus : (report ok c o d s).bus = s.bus := rfl

end

section
variable (d : List Byte) (s : State)

@[simp] theorem succeed_cfg : (succeed d s).cfg = s.cfg := rfl
@[simp] theorem succeed_sess : (succeed d s).sess = s.sess := rfl
@[simp] theorem succeed_addr : (succeed d s).addr = s.addr := rfl
@[simp] theorem succeed_div : (succeed d s).div = s.div := rfl
@[simp] theorem succeed_handle : (succeed d s).handle = s.handle := rfl
@[simp] theorem succeed_cb : (succeed d s).cb = s.cb := rfl
@[simp] theorem succeed_rxbuf : (succeed d s).rxbuf = s.rxbuf := rfl
@[simp] theorem succeed_op : (succeed d s).op = s.op := rfl
@[simp] theorem succeed_aAddr : (succeed d s).aAddr = s.aAddr := rfl
@[simp] theorem succeed_aReg : (succeed d s).aReg = s.aReg := rfl
@[simp] theorem succeed_aVal : (succeed d s).aVal = s.aVal := rfl
@[simp] theorem succeed_aCnt : (succeed d s).aCnt = s.aCnt := rfl
@[simp] theorem succeed_seq : (succeed d s).seq = .idle := rfl
@[simp] theorem succeed_idx : (succeed d s).idx = s.idx := rfl
@[simp] theorem succeed_pollcnt : (succeed d s).pollcnt = s.pollcnt := rfl
@[simp] theorem succeed_expect : (succeed d s).expect = s.expect := rfl
@[simp] theorem succeed_busy : (succeed d s).busy = false := rfl
@[simp] theorem succeed_pollAt : (succeed d s).pollAt = s.pollAt := rfl
@[simp] theorem succeed_nak0 : (succeed d s).nak0 = s.nak0 := rfl
@[simp] theorem succeed_nak1 : (succeed d s).nak1 = s.nak1 := rfl
@[simp] theorem succeed_nak2 : (succeed d s).nak2 = s.nak2 := rfl
@[simp] theorem succeed_resOk : (succeed d s).resOk = true := rfl
@[simp] theorem succeed_resCause : (succeed d s).resCause = .none := rfl
@[simp] theorem succeed_resOpc : (succeed d s).resOpc = s.op.opc := rfl
@[simp] theorem succeed_resLen : (succeed d s).resLen = BitVec.ofNat 8 d.length := rfl
@[simp] theorem succeed_resData : (succeed d s).resData = d := rfl
@[simp] theorem succeed_resValid : (succeed d s).resValid = true := rfl
@[simp] theorem succeed_port : (succeed d s).port = s.port := rfl
@[simp] theorem succeed_bridge : (succeed d s).bridge = s.bridge := rfl
@[simp] theorem succeed_turn : (succeed d s).turn = s.turn := rfl
@[simp] theorem succeed_inputs : (succeed d s).inputs = s.inputs := rfl
@[simp] theorem succeed_draws : (succeed d s).draws = s.draws := rfl
@[simp] theorem succeed_hist : (succeed d s).hist = s.hist ++ [.result (rspWord true .none s.op.opc (BitVec.ofNat 8 d.length)) d] := rfl
@[simp] theorem succeed_txh : (succeed d s).txh = s.txh := by
  rw [State.txh, succeed_hist, List.filterMap_append]; simp [State.txh, Event.burst?]
@[simp] theorem succeed_ctrlh : (succeed d s).ctrlh = s.ctrlh := by
  rw [State.ctrlh, succeed_hist, List.filterMap_append]; simp [State.ctrlh, Event.ctrl?]
@[simp] theorem succeed_resh : (succeed d s).resh = s.resh ++ [(rspWord true .none s.op.opc (BitVec.ofNat 8 d.length), d)] := by
  rw [State.resh, succeed_hist, List.filterMap_append]; simp [State.resh, Event.result?]
@[simp] theorem succeed_bus : (succeed d s).bus = s.bus := rfl

end

section
variable (c : Cause) (s : State)

@[simp] theorem fail_cfg : (fail c s).cfg = s.cfg := rfl
@[simp] theorem fail_sess : (fail c s).sess = s.sess := rfl
@[simp] theorem fail_addr : (fail c s).addr = s.addr := rfl
@[simp] theorem fail_div : (fail c s).div = s.div := rfl
@[simp] theorem fail_handle : (fail c s).handle = s.handle := rfl
@[simp] theorem fail_cb : (fail c s).cb = s.cb := rfl
@[simp] theorem fail_rxbuf : (fail c s).rxbuf = s.rxbuf := rfl
@[simp] theorem fail_op : (fail c s).op = s.op := rfl
@[simp] theorem fail_aAddr : (fail c s).aAddr = s.aAddr := rfl
@[simp] theorem fail_aReg : (fail c s).aReg = s.aReg := rfl
@[simp] theorem fail_aVal : (fail c s).aVal = s.aVal := rfl
@[simp] theorem fail_aCnt : (fail c s).aCnt = s.aCnt := rfl
@[simp] theorem fail_seq : (fail c s).seq = .idle := rfl
@[simp] theorem fail_idx : (fail c s).idx = s.idx := rfl
@[simp] theorem fail_pollcnt : (fail c s).pollcnt = s.pollcnt := rfl
@[simp] theorem fail_expect : (fail c s).expect = s.expect := rfl
@[simp] theorem fail_busy : (fail c s).busy = false := rfl
@[simp] theorem fail_pollAt : (fail c s).pollAt = s.pollAt := rfl
@[simp] theorem fail_nak0 : (fail c s).nak0 = s.nak0 := rfl
@[simp] theorem fail_nak1 : (fail c s).nak1 = s.nak1 := rfl
@[simp] theorem fail_nak2 : (fail c s).nak2 = s.nak2 := rfl
@[simp] theorem fail_resOk : (fail c s).resOk = false := rfl
@[simp] theorem fail_resCause : (fail c s).resCause = c := rfl
@[simp] theorem fail_resOpc : (fail c s).resOpc = s.op.opc := rfl
@[simp] theorem fail_resLen : (fail c s).resLen = 0x00#8 := rfl
@[simp] theorem fail_resData : (fail c s).resData = [] := rfl
@[simp] theorem fail_resValid : (fail c s).resValid = true := rfl
@[simp] theorem fail_port : (fail c s).port = s.port := rfl
@[simp] theorem fail_bridge : (fail c s).bridge = s.bridge := rfl
@[simp] theorem fail_turn : (fail c s).turn = s.turn := rfl
@[simp] theorem fail_inputs : (fail c s).inputs = s.inputs := rfl
@[simp] theorem fail_draws : (fail c s).draws = s.draws := rfl
@[simp] theorem fail_hist : (fail c s).hist = s.hist ++ [.result (rspWord false c s.op.opc 0x00#8) []] := rfl
@[simp] theorem fail_txh : (fail c s).txh = s.txh := by
  rw [State.txh, fail_hist, List.filterMap_append]; simp [State.txh, Event.burst?]
@[simp] theorem fail_ctrlh : (fail c s).ctrlh = s.ctrlh := by
  rw [State.ctrlh, fail_hist, List.filterMap_append]; simp [State.ctrlh, Event.ctrl?]
@[simp] theorem fail_resh : (fail c s).resh = s.resh ++ [(rspWord false c s.op.opc (0x00#8), [])] := by
  rw [State.resh, fail_hist, List.filterMap_append]; simp [State.resh, Event.result?]
@[simp] theorem fail_bus : (fail c s).bus = s.bus := rfl

end

section
variable (o : HostOp) (w : HostWord) (s : State)

@[simp] theorem accept_cfg : (accept o w s).cfg = s.cfg := rfl
@[simp] theorem accept_sess : (accept o w s).sess = s.sess := rfl
@[simp] theorem accept_addr : (accept o w s).addr = s.addr := rfl
@[simp] theorem accept_div : (accept o w s).div = s.div := rfl
@[simp] theorem accept_handle : (accept o w s).handle = s.handle := rfl
@[simp] theorem accept_cb : (accept o w s).cb = s.cb := rfl
@[simp] theorem accept_rxbuf : (accept o w s).rxbuf = s.rxbuf := rfl
@[simp] theorem accept_op : (accept o w s).op = o := rfl
@[simp] theorem accept_aAddr : (accept o w s).aAddr = hostAddr w := rfl
@[simp] theorem accept_aReg : (accept o w s).aReg = hostReg w := rfl
@[simp] theorem accept_aVal : (accept o w s).aVal = hostArg w := rfl
@[simp] theorem accept_aCnt : (accept o w s).aCnt = hostCnt w := rfl
@[simp] theorem accept_seq : (accept o w s).seq = firstState o := rfl
@[simp] theorem accept_idx : (accept o w s).idx = s.idx := rfl
@[simp] theorem accept_pollcnt : (accept o w s).pollcnt = s.pollcnt := rfl
@[simp] theorem accept_expect : (accept o w s).expect = s.expect := rfl
@[simp] theorem accept_busy : (accept o w s).busy = true := rfl
@[simp] theorem accept_pollAt : (accept o w s).pollAt = s.pollAt := rfl
@[simp] theorem accept_nak0 : (accept o w s).nak0 = s.nak0 := rfl
@[simp] theorem accept_nak1 : (accept o w s).nak1 = s.nak1 := rfl
@[simp] theorem accept_nak2 : (accept o w s).nak2 = s.nak2 := rfl
@[simp] theorem accept_resOk : (accept o w s).resOk = s.resOk := rfl
@[simp] theorem accept_resCause : (accept o w s).resCause = s.resCause := rfl
@[simp] theorem accept_resOpc : (accept o w s).resOpc = s.resOpc := rfl
@[simp] theorem accept_resLen : (accept o w s).resLen = s.resLen := rfl
@[simp] theorem accept_resData : (accept o w s).resData = s.resData := rfl
@[simp] theorem accept_resValid : (accept o w s).resValid = s.resValid := rfl
@[simp] theorem accept_port : (accept o w s).port = s.port := rfl
@[simp] theorem accept_bridge : (accept o w s).bridge = s.bridge := rfl
@[simp] theorem accept_turn : (accept o w s).turn = s.turn := rfl
@[simp] theorem accept_inputs : (accept o w s).inputs = s.inputs := rfl
@[simp] theorem accept_draws : (accept o w s).draws = s.draws := rfl
@[simp] theorem accept_hist : (accept o w s).hist = s.hist := rfl
@[simp] theorem accept_txh : (accept o w s).txh = s.txh := rfl
@[simp] theorem accept_ctrlh : (accept o w s).ctrlh = s.ctrlh := rfl
@[simp] theorem accept_resh : (accept o w s).resh = s.resh := rfl
@[simp] theorem accept_bus : (accept o w s).bus = s.bus := rfl

end

section
variable (e : CtrlEvent) (s : State)

@[simp] theorem ctrl_cfg : (ctrl e s).cfg = s.cfg := rfl
@[simp] theorem ctrl_sess : (ctrl e s).sess = s.sess := rfl
@[simp] theorem ctrl_addr : (ctrl e s).addr = s.addr := rfl
@[simp] theorem ctrl_div : (ctrl e s).div = s.div := rfl
@[simp] theorem ctrl_handle : (ctrl e s).handle = s.handle := rfl
@[simp] theorem ctrl_cb : (ctrl e s).cb = s.cb := rfl
@[simp] theorem ctrl_rxbuf : (ctrl e s).rxbuf = s.rxbuf := rfl
@[simp] theorem ctrl_op : (ctrl e s).op = s.op := rfl
@[simp] theorem ctrl_aAddr : (ctrl e s).aAddr = s.aAddr := rfl
@[simp] theorem ctrl_aReg : (ctrl e s).aReg = s.aReg := rfl
@[simp] theorem ctrl_aVal : (ctrl e s).aVal = s.aVal := rfl
@[simp] theorem ctrl_aCnt : (ctrl e s).aCnt = s.aCnt := rfl
@[simp] theorem ctrl_seq : (ctrl e s).seq = s.seq := rfl
@[simp] theorem ctrl_idx : (ctrl e s).idx = s.idx := rfl
@[simp] theorem ctrl_pollcnt : (ctrl e s).pollcnt = s.pollcnt := rfl
@[simp] theorem ctrl_expect : (ctrl e s).expect = s.expect := rfl
@[simp] theorem ctrl_busy : (ctrl e s).busy = s.busy := rfl
@[simp] theorem ctrl_pollAt : (ctrl e s).pollAt = s.pollAt := rfl
@[simp] theorem ctrl_nak0 : (ctrl e s).nak0 = s.nak0 := rfl
@[simp] theorem ctrl_nak1 : (ctrl e s).nak1 = s.nak1 := rfl
@[simp] theorem ctrl_nak2 : (ctrl e s).nak2 = s.nak2 := rfl
@[simp] theorem ctrl_resOk : (ctrl e s).resOk = s.resOk := rfl
@[simp] theorem ctrl_resCause : (ctrl e s).resCause = s.resCause := rfl
@[simp] theorem ctrl_resOpc : (ctrl e s).resOpc = s.resOpc := rfl
@[simp] theorem ctrl_resLen : (ctrl e s).resLen = s.resLen := rfl
@[simp] theorem ctrl_resData : (ctrl e s).resData = s.resData := rfl
@[simp] theorem ctrl_resValid : (ctrl e s).resValid = s.resValid := rfl
@[simp] theorem ctrl_port : (ctrl e s).port = s.port := rfl
@[simp] theorem ctrl_bridge : (ctrl e s).bridge = bridgeAfterCtrl e s.draws s.bridge := rfl
@[simp] theorem ctrl_turn : (ctrl e s).turn = s.turn := rfl
@[simp] theorem ctrl_inputs : (ctrl e s).inputs = s.inputs := rfl
@[simp] theorem ctrl_draws : (ctrl e s).draws = s.draws + ctrlDraws e := rfl
@[simp] theorem ctrl_hist : (ctrl e s).hist = s.hist ++ [.ctrl e] := rfl
@[simp] theorem ctrl_txh : (ctrl e s).txh = s.txh := by
  rw [State.txh, ctrl_hist, List.filterMap_append]; simp [State.txh, Event.burst?]
@[simp] theorem ctrl_ctrlh : (ctrl e s).ctrlh = s.ctrlh ++ [e] := by
  rw [State.ctrlh, ctrl_hist, List.filterMap_append]; simp [State.ctrlh, Event.ctrl?]
@[simp] theorem ctrl_resh : (ctrl e s).resh = s.resh := by
  rw [State.resh, ctrl_hist, List.filterMap_append]; simp [State.resh, Event.result?]
@[simp] theorem ctrl_bus : (ctrl e s).bus = s.bus := rfl

end

section
variable (s : State)

@[simp] theorem holdBridge_cfg : (holdBridge s).cfg = s.cfg := rfl
@[simp] theorem holdBridge_sess : (holdBridge s).sess = s.sess := rfl
@[simp] theorem holdBridge_addr : (holdBridge s).addr = s.addr := rfl
@[simp] theorem holdBridge_div : (holdBridge s).div = s.div := rfl
@[simp] theorem holdBridge_handle : (holdBridge s).handle = true := rfl
@[simp] theorem holdBridge_cb : (holdBridge s).cb = s.cb := rfl
@[simp] theorem holdBridge_rxbuf : (holdBridge s).rxbuf = s.rxbuf := rfl
@[simp] theorem holdBridge_op : (holdBridge s).op = s.op := rfl
@[simp] theorem holdBridge_aAddr : (holdBridge s).aAddr = s.aAddr := rfl
@[simp] theorem holdBridge_aReg : (holdBridge s).aReg = s.aReg := rfl
@[simp] theorem holdBridge_aVal : (holdBridge s).aVal = s.aVal := rfl
@[simp] theorem holdBridge_aCnt : (holdBridge s).aCnt = s.aCnt := rfl
@[simp] theorem holdBridge_seq : (holdBridge s).seq = s.seq := rfl
@[simp] theorem holdBridge_idx : (holdBridge s).idx = s.idx := rfl
@[simp] theorem holdBridge_pollcnt : (holdBridge s).pollcnt = s.pollcnt := rfl
@[simp] theorem holdBridge_expect : (holdBridge s).expect = s.expect := rfl
@[simp] theorem holdBridge_busy : (holdBridge s).busy = s.busy := rfl
@[simp] theorem holdBridge_pollAt : (holdBridge s).pollAt = s.pollAt := rfl
@[simp] theorem holdBridge_nak0 : (holdBridge s).nak0 = s.nak0 := rfl
@[simp] theorem holdBridge_nak1 : (holdBridge s).nak1 = s.nak1 := rfl
@[simp] theorem holdBridge_nak2 : (holdBridge s).nak2 = s.nak2 := rfl
@[simp] theorem holdBridge_resOk : (holdBridge s).resOk = s.resOk := rfl
@[simp] theorem holdBridge_resCause : (holdBridge s).resCause = s.resCause := rfl
@[simp] theorem holdBridge_resOpc : (holdBridge s).resOpc = s.resOpc := rfl
@[simp] theorem holdBridge_resLen : (holdBridge s).resLen = s.resLen := rfl
@[simp] theorem holdBridge_resData : (holdBridge s).resData = s.resData := rfl
@[simp] theorem holdBridge_resValid : (holdBridge s).resValid = s.resValid := rfl
@[simp] theorem holdBridge_port : (holdBridge s).port = s.port := rfl
@[simp] theorem holdBridge_bridge_held : (holdBridge s).bridge.held = true := rfl
@[simp] theorem holdBridge_bridge_others : (holdBridge s).bridge.others = s.bridge.others := rfl
@[simp] theorem holdBridge_bridge_settings : (holdBridge s).bridge.settings = s.bridge.settings := rfl
@[simp] theorem holdBridge_bridge_dir : (holdBridge s).bridge.dir = s.bridge.dir := rfl
@[simp] theorem holdBridge_bridge_val : (holdBridge s).bridge.val = s.bridge.val := rfl
@[simp] theorem holdBridge_bridge_scl : (holdBridge s).bridge.scl = s.bridge.scl := rfl
@[simp] theorem holdBridge_bridge_cmdq : (holdBridge s).bridge.cmdq = s.bridge.cmdq := rfl
@[simp] theorem holdBridge_bridge_resp : (holdBridge s).bridge.resp = s.bridge.resp := rfl
@[simp] theorem holdBridge_bridge_rxq : (holdBridge s).bridge.rxq = s.bridge.rxq := rfl
@[simp] theorem holdBridge_turn : (holdBridge s).turn = s.turn := rfl
@[simp] theorem holdBridge_inputs : (holdBridge s).inputs = s.inputs := rfl
@[simp] theorem holdBridge_draws : (holdBridge s).draws = s.draws := rfl
@[simp] theorem holdBridge_hist : (holdBridge s).hist = s.hist := rfl
@[simp] theorem holdBridge_txh : (holdBridge s).txh = s.txh := rfl
@[simp] theorem holdBridge_ctrlh : (holdBridge s).ctrlh = s.ctrlh := rfl
@[simp] theorem holdBridge_resh : (holdBridge s).resh = s.resh := rfl
@[simp] theorem holdBridge_bus : (holdBridge s).bus = s.bus := rfl

end

section
variable (bs : List Byte) (s : State)

@[simp] theorem txWrite_cfg : (txWrite bs s).cfg = s.cfg := rfl
@[simp] theorem txWrite_sess : (txWrite bs s).sess = s.sess := rfl
@[simp] theorem txWrite_addr : (txWrite bs s).addr = s.addr := rfl
@[simp] theorem txWrite_div : (txWrite bs s).div = s.div := rfl
@[simp] theorem txWrite_handle : (txWrite bs s).handle = s.handle := rfl
@[simp] theorem txWrite_cb : (txWrite bs s).cb = s.cb := rfl
@[simp] theorem txWrite_rxbuf : (txWrite bs s).rxbuf = s.rxbuf := rfl
@[simp] theorem txWrite_op : (txWrite bs s).op = s.op := rfl
@[simp] theorem txWrite_aAddr : (txWrite bs s).aAddr = s.aAddr := rfl
@[simp] theorem txWrite_aReg : (txWrite bs s).aReg = s.aReg := rfl
@[simp] theorem txWrite_aVal : (txWrite bs s).aVal = s.aVal := rfl
@[simp] theorem txWrite_aCnt : (txWrite bs s).aCnt = s.aCnt := rfl
@[simp] theorem txWrite_seq : (txWrite bs s).seq = s.seq := rfl
@[simp] theorem txWrite_idx : (txWrite bs s).idx = s.idx := rfl
@[simp] theorem txWrite_pollcnt : (txWrite bs s).pollcnt = s.pollcnt := rfl
@[simp] theorem txWrite_expect : (txWrite bs s).expect = s.expect := rfl
@[simp] theorem txWrite_busy : (txWrite bs s).busy = s.busy := rfl
@[simp] theorem txWrite_pollAt : (txWrite bs s).pollAt = s.pollAt := rfl
@[simp] theorem txWrite_nak0 : (txWrite bs s).nak0 = s.nak0 := rfl
@[simp] theorem txWrite_nak1 : (txWrite bs s).nak1 = s.nak1 := rfl
@[simp] theorem txWrite_nak2 : (txWrite bs s).nak2 = s.nak2 := rfl
@[simp] theorem txWrite_resOk : (txWrite bs s).resOk = s.resOk := rfl
@[simp] theorem txWrite_resCause : (txWrite bs s).resCause = s.resCause := rfl
@[simp] theorem txWrite_resOpc : (txWrite bs s).resOpc = s.resOpc := rfl
@[simp] theorem txWrite_resLen : (txWrite bs s).resLen = s.resLen := rfl
@[simp] theorem txWrite_resData : (txWrite bs s).resData = s.resData := rfl
@[simp] theorem txWrite_resValid : (txWrite bs s).resValid = s.resValid := rfl
@[simp] theorem txWrite_port : (txWrite bs s).port = s.port := rfl
@[simp] theorem txWrite_bridge_held : (txWrite bs s).bridge.held = s.bridge.held := rfl
@[simp] theorem txWrite_bridge_others : (txWrite bs s).bridge.others = s.bridge.others := rfl
@[simp] theorem txWrite_bridge_settings : (txWrite bs s).bridge.settings = s.bridge.settings := rfl
@[simp] theorem txWrite_bridge_dir : (txWrite bs s).bridge.dir = s.bridge.dir := rfl
@[simp] theorem txWrite_bridge_val : (txWrite bs s).bridge.val = s.bridge.val := rfl
@[simp] theorem txWrite_bridge_scl : (txWrite bs s).bridge.scl = s.bridge.scl := rfl
@[simp] theorem txWrite_bridge_cmdq : (txWrite bs s).bridge.cmdq = s.bridge.cmdq ++ bs := rfl
@[simp] theorem txWrite_bridge_resp : (txWrite bs s).bridge.resp = s.bridge.resp := rfl
@[simp] theorem txWrite_bridge_rxq : (txWrite bs s).bridge.rxq = s.bridge.rxq := rfl
@[simp] theorem txWrite_turn : (txWrite bs s).turn = s.turn := rfl
@[simp] theorem txWrite_inputs : (txWrite bs s).inputs = s.inputs := rfl
@[simp] theorem txWrite_draws : (txWrite bs s).draws = s.draws := rfl
@[simp] theorem txWrite_hist : (txWrite bs s).hist = s.hist ++ [.txWrite bs] := rfl
@[simp] theorem txWrite_txh : (txWrite bs s).txh = s.txh ++ [bs] := by
  rw [State.txh, txWrite_hist, List.filterMap_append]; simp [State.txh, Event.burst?]
@[simp] theorem txWrite_ctrlh : (txWrite bs s).ctrlh = s.ctrlh := by
  rw [State.ctrlh, txWrite_hist, List.filterMap_append]; simp [State.ctrlh, Event.ctrl?]
@[simp] theorem txWrite_resh : (txWrite bs s).resh = s.resh := by
  rw [State.resh, txWrite_hist, List.filterMap_append]; simp [State.resh, Event.result?]
@[simp] theorem txWrite_bus : (txWrite bs s).bus = s.bus := rfl

end

section
variable (m : Nat) (s : State)

@[simp] theorem rxRead_cfg : (rxRead m s).cfg = s.cfg := rfl
@[simp] theorem rxRead_sess : (rxRead m s).sess = s.sess := rfl
@[simp] theorem rxRead_addr : (rxRead m s).addr = s.addr := rfl
@[simp] theorem rxRead_div : (rxRead m s).div = s.div := rfl
@[simp] theorem rxRead_handle : (rxRead m s).handle = s.handle := rfl
@[simp] theorem rxRead_cb : (rxRead m s).cb = s.cb := rfl
@[simp] theorem rxRead_rxbuf : (rxRead m s).rxbuf = s.bridge.rxq.take m := rfl
@[simp] theorem rxRead_op : (rxRead m s).op = s.op := rfl
@[simp] theorem rxRead_aAddr : (rxRead m s).aAddr = s.aAddr := rfl
@[simp] theorem rxRead_aReg : (rxRead m s).aReg = s.aReg := rfl
@[simp] theorem rxRead_aVal : (rxRead m s).aVal = s.aVal := rfl
@[simp] theorem rxRead_aCnt : (rxRead m s).aCnt = s.aCnt := rfl
@[simp] theorem rxRead_seq : (rxRead m s).seq = s.seq := rfl
@[simp] theorem rxRead_idx : (rxRead m s).idx = s.idx := rfl
@[simp] theorem rxRead_pollcnt : (rxRead m s).pollcnt = s.pollcnt := rfl
@[simp] theorem rxRead_expect : (rxRead m s).expect = s.expect := rfl
@[simp] theorem rxRead_busy : (rxRead m s).busy = s.busy := rfl
@[simp] theorem rxRead_pollAt : (rxRead m s).pollAt = s.pollAt := rfl
@[simp] theorem rxRead_nak0 : (rxRead m s).nak0 = s.nak0 := rfl
@[simp] theorem rxRead_nak1 : (rxRead m s).nak1 = s.nak1 := rfl
@[simp] theorem rxRead_nak2 : (rxRead m s).nak2 = s.nak2 := rfl
@[simp] theorem rxRead_resOk : (rxRead m s).resOk = s.resOk := rfl
@[simp] theorem rxRead_resCause : (rxRead m s).resCause = s.resCause := rfl
@[simp] theorem rxRead_resOpc : (rxRead m s).resOpc = s.resOpc := rfl
@[simp] theorem rxRead_resLen : (rxRead m s).resLen = s.resLen := rfl
@[simp] theorem rxRead_resData : (rxRead m s).resData = s.resData := rfl
@[simp] theorem rxRead_resValid : (rxRead m s).resValid = s.resValid := rfl
@[simp] theorem rxRead_port : (rxRead m s).port = s.port := rfl
@[simp] theorem rxRead_bridge_held : (rxRead m s).bridge.held = s.bridge.held := rfl
@[simp] theorem rxRead_bridge_others : (rxRead m s).bridge.others = s.bridge.others := rfl
@[simp] theorem rxRead_bridge_settings : (rxRead m s).bridge.settings = s.bridge.settings := rfl
@[simp] theorem rxRead_bridge_dir : (rxRead m s).bridge.dir = s.bridge.dir := rfl
@[simp] theorem rxRead_bridge_val : (rxRead m s).bridge.val = s.bridge.val := rfl
@[simp] theorem rxRead_bridge_scl : (rxRead m s).bridge.scl = s.bridge.scl := rfl
@[simp] theorem rxRead_bridge_cmdq : (rxRead m s).bridge.cmdq = s.bridge.cmdq := rfl
@[simp] theorem rxRead_bridge_resp : (rxRead m s).bridge.resp = s.bridge.resp := rfl
@[simp] theorem rxRead_bridge_rxq : (rxRead m s).bridge.rxq = s.bridge.rxq.drop m := rfl
@[simp] theorem rxRead_turn : (rxRead m s).turn = s.turn := rfl
@[simp] theorem rxRead_inputs : (rxRead m s).inputs = s.inputs := rfl
@[simp] theorem rxRead_draws : (rxRead m s).draws = s.draws := rfl
@[simp] theorem rxRead_hist : (rxRead m s).hist = s.hist ++ [.rxRead (s.bridge.rxq.take m)] := rfl
@[simp] theorem rxRead_txh : (rxRead m s).txh = s.txh := by
  rw [State.txh, rxRead_hist, List.filterMap_append]; simp [State.txh, Event.burst?]
@[simp] theorem rxRead_ctrlh : (rxRead m s).ctrlh = s.ctrlh := by
  rw [State.ctrlh, rxRead_hist, List.filterMap_append]; simp [State.ctrlh, Event.ctrl?]
@[simp] theorem rxRead_resh : (rxRead m s).resh = s.resh := by
  rw [State.resh, rxRead_hist, List.filterMap_append]; simp [State.resh, Event.result?]
@[simp] theorem rxRead_bus : (rxRead m s).bus = s.bus := rfl

end

section
variable (bs : List Byte) (s : State)

@[simp] theorem respond_cfg : (respond bs s).cfg = s.cfg := rfl
@[simp] theorem respond_sess : (respond bs s).sess = s.sess := rfl
@[simp] theorem respond_addr : (respond bs s).addr = s.addr := rfl
@[simp] theorem respond_div : (respond bs s).div = s.div := rfl
@[simp] theorem respond_handle : (respond bs s).handle = s.handle := rfl
@[simp] theorem respond_cb : (respond bs s).cb = s.cb := rfl
@[simp] theorem respond_rxbuf : (respond bs s).rxbuf = s.rxbuf := rfl
@[simp] theorem respond_op : (respond bs s).op = s.op := rfl
@[simp] theorem respond_aAddr : (respond bs s).aAddr = s.aAddr := rfl
@[simp] theorem respond_aReg : (respond bs s).aReg = s.aReg := rfl
@[simp] theorem respond_aVal : (respond bs s).aVal = s.aVal := rfl
@[simp] theorem respond_aCnt : (respond bs s).aCnt = s.aCnt := rfl
@[simp] theorem respond_seq : (respond bs s).seq = s.seq := rfl
@[simp] theorem respond_idx : (respond bs s).idx = s.idx := rfl
@[simp] theorem respond_pollcnt : (respond bs s).pollcnt = s.pollcnt := rfl
@[simp] theorem respond_expect : (respond bs s).expect = s.expect := rfl
@[simp] theorem respond_busy : (respond bs s).busy = s.busy := rfl
@[simp] theorem respond_pollAt : (respond bs s).pollAt = s.pollAt := rfl
@[simp] theorem respond_nak0 : (respond bs s).nak0 = s.nak0 := rfl
@[simp] theorem respond_nak1 : (respond bs s).nak1 = s.nak1 := rfl
@[simp] theorem respond_nak2 : (respond bs s).nak2 = s.nak2 := rfl
@[simp] theorem respond_resOk : (respond bs s).resOk = s.resOk := rfl
@[simp] theorem respond_resCause : (respond bs s).resCause = s.resCause := rfl
@[simp] theorem respond_resOpc : (respond bs s).resOpc = s.resOpc := rfl
@[simp] theorem respond_resLen : (respond bs s).resLen = s.resLen := rfl
@[simp] theorem respond_resData : (respond bs s).resData = s.resData := rfl
@[simp] theorem respond_resValid : (respond bs s).resValid = s.resValid := rfl
@[simp] theorem respond_port : (respond bs s).port = s.port := rfl
@[simp] theorem respond_bridge_held : (respond bs s).bridge.held = s.bridge.held := rfl
@[simp] theorem respond_bridge_others : (respond bs s).bridge.others = s.bridge.others := rfl
@[simp] theorem respond_bridge_settings : (respond bs s).bridge.settings = s.bridge.settings := rfl
@[simp] theorem respond_bridge_dir : (respond bs s).bridge.dir = s.bridge.dir := rfl
@[simp] theorem respond_bridge_val : (respond bs s).bridge.val = s.bridge.val := rfl
@[simp] theorem respond_bridge_scl : (respond bs s).bridge.scl = s.bridge.scl := rfl
@[simp] theorem respond_bridge_cmdq : (respond bs s).bridge.cmdq = s.bridge.cmdq := rfl
@[simp] theorem respond_bridge_resp : (respond bs s).bridge.resp = s.bridge.resp ++ bs := rfl
@[simp] theorem respond_bridge_rxq : (respond bs s).bridge.rxq = s.bridge.rxq := rfl
@[simp] theorem respond_turn : (respond bs s).turn = s.turn := rfl
@[simp] theorem respond_inputs : (respond bs s).inputs = s.inputs := rfl
@[simp] theorem respond_draws : (respond bs s).draws = s.draws := rfl
@[simp] theorem respond_hist : (respond bs s).hist = s.hist := rfl
@[simp] theorem respond_txh : (respond bs s).txh = s.txh := rfl
@[simp] theorem respond_ctrlh : (respond bs s).ctrlh = s.ctrlh := rfl
@[simp] theorem respond_resh : (respond bs s).resh = s.resh := rfl
@[simp] theorem respond_bus : (respond bs s).bus = s.bus := rfl

end

section
variable (s : State)

@[simp] theorem flushResponses_cfg : (flushResponses s).cfg = s.cfg := rfl
@[simp] theorem flushResponses_sess : (flushResponses s).sess = s.sess := rfl
@[simp] theorem flushResponses_addr : (flushResponses s).addr = s.addr := rfl
@[simp] theorem flushResponses_div : (flushResponses s).div = s.div := rfl
@[simp] theorem flushResponses_handle : (flushResponses s).handle = s.handle := rfl
@[simp] theorem flushResponses_cb : (flushResponses s).cb = s.cb := rfl
@[simp] theorem flushResponses_rxbuf : (flushResponses s).rxbuf = s.rxbuf := rfl
@[simp] theorem flushResponses_op : (flushResponses s).op = s.op := rfl
@[simp] theorem flushResponses_aAddr : (flushResponses s).aAddr = s.aAddr := rfl
@[simp] theorem flushResponses_aReg : (flushResponses s).aReg = s.aReg := rfl
@[simp] theorem flushResponses_aVal : (flushResponses s).aVal = s.aVal := rfl
@[simp] theorem flushResponses_aCnt : (flushResponses s).aCnt = s.aCnt := rfl
@[simp] theorem flushResponses_seq : (flushResponses s).seq = s.seq := rfl
@[simp] theorem flushResponses_idx : (flushResponses s).idx = s.idx := rfl
@[simp] theorem flushResponses_pollcnt : (flushResponses s).pollcnt = s.pollcnt := rfl
@[simp] theorem flushResponses_expect : (flushResponses s).expect = s.expect := rfl
@[simp] theorem flushResponses_busy : (flushResponses s).busy = s.busy := rfl
@[simp] theorem flushResponses_pollAt : (flushResponses s).pollAt = s.pollAt := rfl
@[simp] theorem flushResponses_nak0 : (flushResponses s).nak0 = s.nak0 := rfl
@[simp] theorem flushResponses_nak1 : (flushResponses s).nak1 = s.nak1 := rfl
@[simp] theorem flushResponses_nak2 : (flushResponses s).nak2 = s.nak2 := rfl
@[simp] theorem flushResponses_resOk : (flushResponses s).resOk = s.resOk := rfl
@[simp] theorem flushResponses_resCause : (flushResponses s).resCause = s.resCause := rfl
@[simp] theorem flushResponses_resOpc : (flushResponses s).resOpc = s.resOpc := rfl
@[simp] theorem flushResponses_resLen : (flushResponses s).resLen = s.resLen := rfl
@[simp] theorem flushResponses_resData : (flushResponses s).resData = s.resData := rfl
@[simp] theorem flushResponses_resValid : (flushResponses s).resValid = s.resValid := rfl
@[simp] theorem flushResponses_port : (flushResponses s).port = s.port := rfl
@[simp] theorem flushResponses_bridge_held : (flushResponses s).bridge.held = s.bridge.held := rfl
@[simp] theorem flushResponses_bridge_others : (flushResponses s).bridge.others = s.bridge.others := rfl
@[simp] theorem flushResponses_bridge_settings : (flushResponses s).bridge.settings = s.bridge.settings := rfl
@[simp] theorem flushResponses_bridge_dir : (flushResponses s).bridge.dir = s.bridge.dir := rfl
@[simp] theorem flushResponses_bridge_val : (flushResponses s).bridge.val = s.bridge.val := rfl
@[simp] theorem flushResponses_bridge_scl : (flushResponses s).bridge.scl = s.bridge.scl := rfl
@[simp] theorem flushResponses_bridge_cmdq : (flushResponses s).bridge.cmdq = s.bridge.cmdq := rfl
@[simp] theorem flushResponses_bridge_resp : (flushResponses s).bridge.resp = [] := rfl
@[simp] theorem flushResponses_bridge_rxq : (flushResponses s).bridge.rxq = s.bridge.rxq ++ s.bridge.resp := rfl
@[simp] theorem flushResponses_turn : (flushResponses s).turn = s.turn := rfl
@[simp] theorem flushResponses_inputs : (flushResponses s).inputs = s.inputs := rfl
@[simp] theorem flushResponses_draws : (flushResponses s).draws = s.draws := rfl
@[simp] theorem flushResponses_hist : (flushResponses s).hist = s.hist := rfl
@[simp] theorem flushResponses_txh : (flushResponses s).txh = s.txh := rfl
@[simp] theorem flushResponses_ctrlh : (flushResponses s).ctrlh = s.ctrlh := rfl
@[simp] theorem flushResponses_resh : (flushResponses s).resh = s.resh := rfl
@[simp] theorem flushResponses_bus : (flushResponses s).bus = s.bus := rfl

end

section
variable (bs : List Byte) (s : State)

@[simp] theorem arriveBytes_cfg : (arriveBytes bs s).cfg = s.cfg := rfl
@[simp] theorem arriveBytes_sess : (arriveBytes bs s).sess = s.sess := rfl
@[simp] theorem arriveBytes_addr : (arriveBytes bs s).addr = s.addr := rfl
@[simp] theorem arriveBytes_div : (arriveBytes bs s).div = s.div := rfl
@[simp] theorem arriveBytes_handle : (arriveBytes bs s).handle = s.handle := rfl
@[simp] theorem arriveBytes_cb : (arriveBytes bs s).cb = s.cb := rfl
@[simp] theorem arriveBytes_rxbuf : (arriveBytes bs s).rxbuf = s.rxbuf := rfl
@[simp] theorem arriveBytes_op : (arriveBytes bs s).op = s.op := rfl
@[simp] theorem arriveBytes_aAddr : (arriveBytes bs s).aAddr = s.aAddr := rfl
@[simp] theorem arriveBytes_aReg : (arriveBytes bs s).aReg = s.aReg := rfl
@[simp] theorem arriveBytes_aVal : (arriveBytes bs s).aVal = s.aVal := rfl
@[simp] theorem arriveBytes_aCnt : (arriveBytes bs s).aCnt = s.aCnt := rfl
@[simp] theorem arriveBytes_seq : (arriveBytes bs s).seq = s.seq := rfl
@[simp] theorem arriveBytes_idx : (arriveBytes bs s).idx = s.idx := rfl
@[simp] theorem arriveBytes_pollcnt : (arriveBytes bs s).pollcnt = s.pollcnt := rfl
@[simp] theorem arriveBytes_expect : (arriveBytes bs s).expect = s.expect := rfl
@[simp] theorem arriveBytes_busy : (arriveBytes bs s).busy = s.busy := rfl
@[simp] theorem arriveBytes_pollAt : (arriveBytes bs s).pollAt = s.pollAt := rfl
@[simp] theorem arriveBytes_nak0 : (arriveBytes bs s).nak0 = s.nak0 := rfl
@[simp] theorem arriveBytes_nak1 : (arriveBytes bs s).nak1 = s.nak1 := rfl
@[simp] theorem arriveBytes_nak2 : (arriveBytes bs s).nak2 = s.nak2 := rfl
@[simp] theorem arriveBytes_resOk : (arriveBytes bs s).resOk = s.resOk := rfl
@[simp] theorem arriveBytes_resCause : (arriveBytes bs s).resCause = s.resCause := rfl
@[simp] theorem arriveBytes_resOpc : (arriveBytes bs s).resOpc = s.resOpc := rfl
@[simp] theorem arriveBytes_resLen : (arriveBytes bs s).resLen = s.resLen := rfl
@[simp] theorem arriveBytes_resData : (arriveBytes bs s).resData = s.resData := rfl
@[simp] theorem arriveBytes_resValid : (arriveBytes bs s).resValid = s.resValid := rfl
@[simp] theorem arriveBytes_port : (arriveBytes bs s).port = s.port := rfl
@[simp] theorem arriveBytes_bridge_held : (arriveBytes bs s).bridge.held = s.bridge.held := rfl
@[simp] theorem arriveBytes_bridge_others : (arriveBytes bs s).bridge.others = s.bridge.others := rfl
@[simp] theorem arriveBytes_bridge_settings : (arriveBytes bs s).bridge.settings = s.bridge.settings := rfl
@[simp] theorem arriveBytes_bridge_dir : (arriveBytes bs s).bridge.dir = s.bridge.dir := rfl
@[simp] theorem arriveBytes_bridge_val : (arriveBytes bs s).bridge.val = s.bridge.val := rfl
@[simp] theorem arriveBytes_bridge_scl : (arriveBytes bs s).bridge.scl = s.bridge.scl := rfl
@[simp] theorem arriveBytes_bridge_cmdq : (arriveBytes bs s).bridge.cmdq = s.bridge.cmdq := rfl
@[simp] theorem arriveBytes_bridge_resp : (arriveBytes bs s).bridge.resp = s.bridge.resp := rfl
@[simp] theorem arriveBytes_bridge_rxq : (arriveBytes bs s).bridge.rxq = s.bridge.rxq ++ bs := rfl
@[simp] theorem arriveBytes_turn : (arriveBytes bs s).turn = s.turn := rfl
@[simp] theorem arriveBytes_inputs : (arriveBytes bs s).inputs = s.inputs := rfl
@[simp] theorem arriveBytes_draws : (arriveBytes bs s).draws = s.draws := rfl
@[simp] theorem arriveBytes_hist : (arriveBytes bs s).hist = s.hist := rfl
@[simp] theorem arriveBytes_txh : (arriveBytes bs s).txh = s.txh := rfl
@[simp] theorem arriveBytes_ctrlh : (arriveBytes bs s).ctrlh = s.ctrlh := rfl
@[simp] theorem arriveBytes_resh : (arriveBytes bs s).resh = s.resh := rfl
@[simp] theorem arriveBytes_bus : (arriveBytes bs s).bus = s.bus := rfl

end

section
variable (f : Settings → Settings) (s : State)

@[simp] theorem setSettings_cfg : (setSettings f s).cfg = s.cfg := rfl
@[simp] theorem setSettings_sess : (setSettings f s).sess = s.sess := rfl
@[simp] theorem setSettings_addr : (setSettings f s).addr = s.addr := rfl
@[simp] theorem setSettings_div : (setSettings f s).div = s.div := rfl
@[simp] theorem setSettings_handle : (setSettings f s).handle = s.handle := rfl
@[simp] theorem setSettings_cb : (setSettings f s).cb = s.cb := rfl
@[simp] theorem setSettings_rxbuf : (setSettings f s).rxbuf = s.rxbuf := rfl
@[simp] theorem setSettings_op : (setSettings f s).op = s.op := rfl
@[simp] theorem setSettings_aAddr : (setSettings f s).aAddr = s.aAddr := rfl
@[simp] theorem setSettings_aReg : (setSettings f s).aReg = s.aReg := rfl
@[simp] theorem setSettings_aVal : (setSettings f s).aVal = s.aVal := rfl
@[simp] theorem setSettings_aCnt : (setSettings f s).aCnt = s.aCnt := rfl
@[simp] theorem setSettings_seq : (setSettings f s).seq = s.seq := rfl
@[simp] theorem setSettings_idx : (setSettings f s).idx = s.idx := rfl
@[simp] theorem setSettings_pollcnt : (setSettings f s).pollcnt = s.pollcnt := rfl
@[simp] theorem setSettings_expect : (setSettings f s).expect = s.expect := rfl
@[simp] theorem setSettings_busy : (setSettings f s).busy = s.busy := rfl
@[simp] theorem setSettings_pollAt : (setSettings f s).pollAt = s.pollAt := rfl
@[simp] theorem setSettings_nak0 : (setSettings f s).nak0 = s.nak0 := rfl
@[simp] theorem setSettings_nak1 : (setSettings f s).nak1 = s.nak1 := rfl
@[simp] theorem setSettings_nak2 : (setSettings f s).nak2 = s.nak2 := rfl
@[simp] theorem setSettings_resOk : (setSettings f s).resOk = s.resOk := rfl
@[simp] theorem setSettings_resCause : (setSettings f s).resCause = s.resCause := rfl
@[simp] theorem setSettings_resOpc : (setSettings f s).resOpc = s.resOpc := rfl
@[simp] theorem setSettings_resLen : (setSettings f s).resLen = s.resLen := rfl
@[simp] theorem setSettings_resData : (setSettings f s).resData = s.resData := rfl
@[simp] theorem setSettings_resValid : (setSettings f s).resValid = s.resValid := rfl
@[simp] theorem setSettings_port : (setSettings f s).port = s.port := rfl
@[simp] theorem setSettings_bridge_held : (setSettings f s).bridge.held = s.bridge.held := rfl
@[simp] theorem setSettings_bridge_others : (setSettings f s).bridge.others = s.bridge.others := rfl
@[simp] theorem setSettings_bridge_settings : (setSettings f s).bridge.settings = f s.bridge.settings := rfl
@[simp] theorem setSettings_bridge_dir : (setSettings f s).bridge.dir = s.bridge.dir := rfl
@[simp] theorem setSettings_bridge_val : (setSettings f s).bridge.val = s.bridge.val := rfl
@[simp] theorem setSettings_bridge_scl : (setSettings f s).bridge.scl = s.bridge.scl := rfl
@[simp] theorem setSettings_bridge_cmdq : (setSettings f s).bridge.cmdq = s.bridge.cmdq := rfl
@[simp] theorem setSettings_bridge_resp : (setSettings f s).bridge.resp = s.bridge.resp := rfl
@[simp] theorem setSettings_bridge_rxq : (setSettings f s).bridge.rxq = s.bridge.rxq := rfl
@[simp] theorem setSettings_turn : (setSettings f s).turn = s.turn := rfl
@[simp] theorem setSettings_inputs : (setSettings f s).inputs = s.inputs := rfl
@[simp] theorem setSettings_draws : (setSettings f s).draws = s.draws := rfl
@[simp] theorem setSettings_hist : (setSettings f s).hist = s.hist := rfl
@[simp] theorem setSettings_txh : (setSettings f s).txh = s.txh := rfl
@[simp] theorem setSettings_ctrlh : (setSettings f s).ctrlh = s.ctrlh := rfl
@[simp] theorem setSettings_resh : (setSettings f s).resh = s.resh := rfl
@[simp] theorem setSettings_bus : (setSettings f s).bus = s.bus := rfl

end

section
variable (es : List BusEvent) (s : State)

@[simp] theorem putBus_cfg : (putBus es s).cfg = s.cfg := rfl
@[simp] theorem putBus_sess : (putBus es s).sess = s.sess := rfl
@[simp] theorem putBus_addr : (putBus es s).addr = s.addr := rfl
@[simp] theorem putBus_div : (putBus es s).div = s.div := rfl
@[simp] theorem putBus_handle : (putBus es s).handle = s.handle := rfl
@[simp] theorem putBus_cb : (putBus es s).cb = s.cb := rfl
@[simp] theorem putBus_rxbuf : (putBus es s).rxbuf = s.rxbuf := rfl
@[simp] theorem putBus_op : (putBus es s).op = s.op := rfl
@[simp] theorem putBus_aAddr : (putBus es s).aAddr = s.aAddr := rfl
@[simp] theorem putBus_aReg : (putBus es s).aReg = s.aReg := rfl
@[simp] theorem putBus_aVal : (putBus es s).aVal = s.aVal := rfl
@[simp] theorem putBus_aCnt : (putBus es s).aCnt = s.aCnt := rfl
@[simp] theorem putBus_seq : (putBus es s).seq = s.seq := rfl
@[simp] theorem putBus_idx : (putBus es s).idx = s.idx := rfl
@[simp] theorem putBus_pollcnt : (putBus es s).pollcnt = s.pollcnt := rfl
@[simp] theorem putBus_expect : (putBus es s).expect = s.expect := rfl
@[simp] theorem putBus_busy : (putBus es s).busy = s.busy := rfl
@[simp] theorem putBus_pollAt : (putBus es s).pollAt = s.pollAt := rfl
@[simp] theorem putBus_nak0 : (putBus es s).nak0 = s.nak0 := rfl
@[simp] theorem putBus_nak1 : (putBus es s).nak1 = s.nak1 := rfl
@[simp] theorem putBus_nak2 : (putBus es s).nak2 = s.nak2 := rfl
@[simp] theorem putBus_resOk : (putBus es s).resOk = s.resOk := rfl
@[simp] theorem putBus_resCause : (putBus es s).resCause = s.resCause := rfl
@[simp] theorem putBus_resOpc : (putBus es s).resOpc = s.resOpc := rfl
@[simp] theorem putBus_resLen : (putBus es s).resLen = s.resLen := rfl
@[simp] theorem putBus_resData : (putBus es s).resData = s.resData := rfl
@[simp] theorem putBus_resValid : (putBus es s).resValid = s.resValid := rfl
@[simp] theorem putBus_port : (putBus es s).port = s.port := rfl
@[simp] theorem putBus_bridge : (putBus es s).bridge = s.bridge := rfl
@[simp] theorem putBus_turn : (putBus es s).turn = s.turn := rfl
@[simp] theorem putBus_inputs : (putBus es s).inputs = s.inputs := rfl
@[simp] theorem putBus_draws : (putBus es s).draws = s.draws := rfl
@[simp] theorem putBus_hist : (putBus es s).hist = s.hist := rfl
@[simp] theorem putBus_txh : (putBus es s).txh = s.txh := rfl
@[simp] theorem putBus_ctrlh : (putBus es s).ctrlh = s.ctrlh := rfl
@[simp] theorem putBus_resh : (putBus es s).resh = s.resh := rfl
@[simp] theorem putBus_bus : (putBus es s).bus = s.bus ++ es := rfl

end

section
variable (d v : Byte) (s : State)

@[simp] theorem setPins_cfg : (setPins d v s).cfg = s.cfg := rfl
@[simp] theorem setPins_sess : (setPins d v s).sess = s.sess := rfl
@[simp] theorem setPins_addr : (setPins d v s).addr = s.addr := rfl
@[simp] theorem setPins_div : (setPins d v s).div = s.div := rfl
@[simp] theorem setPins_handle : (setPins d v s).handle = s.handle := rfl
@[simp] theorem setPins_cb : (setPins d v s).cb = s.cb := rfl
@[simp] theorem setPins_rxbuf : (setPins d v s).rxbuf = s.rxbuf := rfl
@[simp] theorem setPins_op : (setPins d v s).op = s.op := rfl
@[simp] theorem setPins_aAddr : (setPins d v s).aAddr = s.aAddr := rfl
@[simp] theorem setPins_aReg : (setPins d v s).aReg = s.aReg := rfl
@[simp] theorem setPins_aVal : (setPins d v s).aVal = s.aVal := rfl
@[simp] theorem setPins_aCnt : (setPins d v s).aCnt = s.aCnt := rfl
@[simp] theorem setPins_seq : (setPins d v s).seq = s.seq := rfl
@[simp] theorem setPins_idx : (setPins d v s).idx = s.idx := rfl
@[simp] theorem setPins_pollcnt : (setPins d v s).pollcnt = s.pollcnt := rfl
@[simp] theorem setPins_expect : (setPins d v s).expect = s.expect := rfl
@[simp] theorem setPins_busy : (setPins d v s).busy = s.busy := rfl
@[simp] theorem setPins_pollAt : (setPins d v s).pollAt = s.pollAt := rfl
@[simp] theorem setPins_nak0 : (setPins d v s).nak0 = s.nak0 := rfl
@[simp] theorem setPins_nak1 : (setPins d v s).nak1 = s.nak1 := rfl
@[simp] theorem setPins_nak2 : (setPins d v s).nak2 = s.nak2 := rfl
@[simp] theorem setPins_resOk : (setPins d v s).resOk = s.resOk := rfl
@[simp] theorem setPins_resCause : (setPins d v s).resCause = s.resCause := rfl
@[simp] theorem setPins_resOpc : (setPins d v s).resOpc = s.resOpc := rfl
@[simp] theorem setPins_resLen : (setPins d v s).resLen = s.resLen := rfl
@[simp] theorem setPins_resData : (setPins d v s).resData = s.resData := rfl
@[simp] theorem setPins_resValid : (setPins d v s).resValid = s.resValid := rfl
@[simp] theorem setPins_port : (setPins d v s).port = s.port := rfl
@[simp] theorem setPins_bridge_held : (setPins d v s).bridge.held = s.bridge.held := rfl
@[simp] theorem setPins_bridge_others : (setPins d v s).bridge.others = s.bridge.others := rfl
@[simp] theorem setPins_bridge_settings : (setPins d v s).bridge.settings = s.bridge.settings := rfl
@[simp] theorem setPins_bridge_dir : (setPins d v s).bridge.dir = d := rfl
@[simp] theorem setPins_bridge_val : (setPins d v s).bridge.val = v := rfl
@[simp] theorem setPins_bridge_scl : (setPins d v s).bridge.scl = sclHigh d v := rfl
@[simp] theorem setPins_bridge_cmdq : (setPins d v s).bridge.cmdq = s.bridge.cmdq := rfl
@[simp] theorem setPins_bridge_resp : (setPins d v s).bridge.resp = s.bridge.resp := rfl
@[simp] theorem setPins_bridge_rxq : (setPins d v s).bridge.rxq = s.bridge.rxq := rfl
@[simp] theorem setPins_turn : (setPins d v s).turn = s.turn := rfl
@[simp] theorem setPins_inputs : (setPins d v s).inputs = s.inputs := rfl
@[simp] theorem setPins_draws : (setPins d v s).draws = s.draws := rfl
@[simp] theorem setPins_hist : (setPins d v s).hist = s.hist := rfl
@[simp] theorem setPins_txh : (setPins d v s).txh = s.txh := rfl
@[simp] theorem setPins_ctrlh : (setPins d v s).ctrlh = s.ctrlh := rfl
@[simp] theorem setPins_resh : (setPins d v s).resh = s.resh := rfl
@[simp] theorem setPins_bus : (setPins d v s).bus =
    s.bus ++ busEventOf s.bridge.scl (sdaHigh s.bridge.dir s.bridge.val) (sclHigh d v) (sdaHigh d v) := rfl

end

section
variable (s : State)

@[simp] theorem drawn_cfg : (drawn s).cfg = s.cfg := rfl
@[simp] theorem drawn_sess : (drawn s).sess = s.sess := rfl
@[simp] theorem drawn_addr : (drawn s).addr = s.addr := rfl
@[simp] theorem drawn_div : (drawn s).div = s.div := rfl
@[simp] theorem drawn_handle : (drawn s).handle = s.handle := rfl
@[simp] theorem drawn_cb : (drawn s).cb = s.cb := rfl
@[simp] theorem drawn_rxbuf : (drawn s).rxbuf = s.rxbuf := rfl
@[simp] theorem drawn_op : (drawn s).op = s.op := rfl
@[simp] theorem drawn_aAddr : (drawn s).aAddr = s.aAddr := rfl
@[simp] theorem drawn_aReg : (drawn s).aReg = s.aReg := rfl
@[simp] theorem drawn_aVal : (drawn s).aVal = s.aVal := rfl
@[simp] theorem drawn_aCnt : (drawn s).aCnt = s.aCnt := rfl
@[simp] theorem drawn_seq : (drawn s).seq = s.seq := rfl
@[simp] theorem drawn_idx : (drawn s).idx = s.idx := rfl
@[simp] theorem drawn_pollcnt : (drawn s).pollcnt = s.pollcnt := rfl
@[simp] theorem drawn_expect : (drawn s).expect = s.expect := rfl
@[simp] theorem drawn_busy : (drawn s).busy = s.busy := rfl
@[simp] theorem drawn_pollAt : (drawn s).pollAt = s.pollAt := rfl
@[simp] theorem drawn_nak0 : (drawn s).nak0 = s.nak0 := rfl
@[simp] theorem drawn_nak1 : (drawn s).nak1 = s.nak1 := rfl
@[simp] theorem drawn_nak2 : (drawn s).nak2 = s.nak2 := rfl
@[simp] theorem drawn_resOk : (drawn s).resOk = s.resOk := rfl
@[simp] theorem drawn_resCause : (drawn s).resCause = s.resCause := rfl
@[simp] theorem drawn_resOpc : (drawn s).resOpc = s.resOpc := rfl
@[simp] theorem drawn_resLen : (drawn s).resLen = s.resLen := rfl
@[simp] theorem drawn_resData : (drawn s).resData = s.resData := rfl
@[simp] theorem drawn_resValid : (drawn s).resValid = s.resValid := rfl
@[simp] theorem drawn_port : (drawn s).port = s.port := rfl
@[simp] theorem drawn_bridge : (drawn s).bridge = s.bridge := rfl
@[simp] theorem drawn_turn : (drawn s).turn = s.turn := rfl
@[simp] theorem drawn_inputs : (drawn s).inputs = s.inputs := rfl
@[simp] theorem drawn_draws : (drawn s).draws = s.draws + 1 := rfl
@[simp] theorem drawn_hist : (drawn s).hist = s.hist := rfl
@[simp] theorem drawn_txh : (drawn s).txh = s.txh := rfl
@[simp] theorem drawn_ctrlh : (drawn s).ctrlh = s.ctrlh := rfl
@[simp] theorem drawn_resh : (drawn s).resh = s.resh := rfl
@[simp] theorem drawn_bus : (drawn s).bus = s.bus := rfl

end

section
variable (x : Byte) (s : State)

@[simp] theorem sentinel_cfg : (sentinel x s).cfg = s.cfg := rfl
@[simp] theorem sentinel_sess : (sentinel x s).sess = s.sess := rfl
@[simp] theorem sentinel_addr : (sentinel x s).addr = s.addr := rfl
@[simp] theorem sentinel_div : (sentinel x s).div = s.div := rfl
@[simp] theorem sentinel_handle : (sentinel x s).handle = s.handle := rfl
@[simp] theorem sentinel_cb : (sentinel x s).cb = s.cb := rfl
@[simp] theorem sentinel_rxbuf : (sentinel x s).rxbuf = s.rxbuf := rfl
@[simp] theorem sentinel_op : (sentinel x s).op = s.op := rfl
@[simp] theorem sentinel_aAddr : (sentinel x s).aAddr = s.aAddr := rfl
@[simp] theorem sentinel_aReg : (sentinel x s).aReg = s.aReg := rfl
@[simp] theorem sentinel_aVal : (sentinel x s).aVal = s.aVal := rfl
@[simp] theorem sentinel_aCnt : (sentinel x s).aCnt = s.aCnt := rfl
@[simp] theorem sentinel_seq : (sentinel x s).seq = s.seq := rfl
@[simp] theorem sentinel_idx : (sentinel x s).idx = s.idx := rfl
@[simp] theorem sentinel_pollcnt : (sentinel x s).pollcnt = s.pollcnt := rfl
@[simp] theorem sentinel_expect : (sentinel x s).expect = s.expect := rfl
@[simp] theorem sentinel_busy : (sentinel x s).busy = s.busy := rfl
@[simp] theorem sentinel_pollAt : (sentinel x s).pollAt = s.pollAt := rfl
@[simp] theorem sentinel_nak0 : (sentinel x s).nak0 = s.nak0 := rfl
@[simp] theorem sentinel_nak1 : (sentinel x s).nak1 = s.nak1 := rfl
@[simp] theorem sentinel_nak2 : (sentinel x s).nak2 = s.nak2 := rfl
@[simp] theorem sentinel_resOk : (sentinel x s).resOk = s.resOk := rfl
@[simp] theorem sentinel_resCause : (sentinel x s).resCause = s.resCause := rfl
@[simp] theorem sentinel_resOpc : (sentinel x s).resOpc = s.resOpc := rfl
@[simp] theorem sentinel_resLen : (sentinel x s).resLen = s.resLen := rfl
@[simp] theorem sentinel_resData : (sentinel x s).resData = s.resData := rfl
@[simp] theorem sentinel_resValid : (sentinel x s).resValid = s.resValid := rfl
@[simp] theorem sentinel_port : (sentinel x s).port = s.port := rfl
@[simp] theorem sentinel_bridge_held : (sentinel x s).bridge.held = s.bridge.held := rfl
@[simp] theorem sentinel_bridge_others : (sentinel x s).bridge.others = s.bridge.others := rfl
@[simp] theorem sentinel_bridge_settings : (sentinel x s).bridge.settings = s.bridge.settings := rfl
@[simp] theorem sentinel_bridge_dir : (sentinel x s).bridge.dir = s.bridge.dir := rfl
@[simp] theorem sentinel_bridge_val : (sentinel x s).bridge.val = s.bridge.val := rfl
@[simp] theorem sentinel_bridge_scl : (sentinel x s).bridge.scl = s.bridge.scl := rfl
@[simp] theorem sentinel_bridge_cmdq : (sentinel x s).bridge.cmdq = s.bridge.cmdq := rfl
@[simp] theorem sentinel_bridge_resp : (sentinel x s).bridge.resp = s.bridge.resp ++ echoOf x s := rfl
@[simp] theorem sentinel_bridge_rxq : (sentinel x s).bridge.rxq = s.bridge.rxq := rfl
@[simp] theorem sentinel_turn : (sentinel x s).turn = s.turn := rfl
@[simp] theorem sentinel_inputs : (sentinel x s).inputs = s.inputs := rfl
@[simp] theorem sentinel_draws : (sentinel x s).draws = s.draws + echoDraws s := rfl
@[simp] theorem sentinel_hist : (sentinel x s).hist = s.hist := rfl
@[simp] theorem sentinel_txh : (sentinel x s).txh = s.txh := rfl
@[simp] theorem sentinel_ctrlh : (sentinel x s).ctrlh = s.ctrlh := rfl
@[simp] theorem sentinel_resh : (sentinel x s).resh = s.resh := rfl
@[simp] theorem sentinel_bus : (sentinel x s).bus = s.bus := rfl

end

section
variable (s : State)

@[simp] theorem recordNak_cfg : (recordNak s).cfg = s.cfg := rfl
@[simp] theorem recordNak_sess : (recordNak s).sess = s.sess := rfl
@[simp] theorem recordNak_addr : (recordNak s).addr = s.addr := rfl
@[simp] theorem recordNak_div : (recordNak s).div = s.div := rfl
@[simp] theorem recordNak_handle : (recordNak s).handle = s.handle := rfl
@[simp] theorem recordNak_cb : (recordNak s).cb = s.cb := rfl
@[simp] theorem recordNak_rxbuf : (recordNak s).rxbuf = s.rxbuf := rfl
@[simp] theorem recordNak_op : (recordNak s).op = s.op := rfl
@[simp] theorem recordNak_aAddr : (recordNak s).aAddr = s.aAddr := rfl
@[simp] theorem recordNak_aReg : (recordNak s).aReg = s.aReg := rfl
@[simp] theorem recordNak_aVal : (recordNak s).aVal = s.aVal := rfl
@[simp] theorem recordNak_aCnt : (recordNak s).aCnt = s.aCnt := rfl
@[simp] theorem recordNak_seq : (recordNak s).seq = s.seq := rfl
@[simp] theorem recordNak_idx : (recordNak s).idx = s.idx := rfl
@[simp] theorem recordNak_pollcnt : (recordNak s).pollcnt = s.pollcnt := rfl
@[simp] theorem recordNak_expect : (recordNak s).expect = s.expect := rfl
@[simp] theorem recordNak_busy : (recordNak s).busy = s.busy := rfl
@[simp] theorem recordNak_pollAt : (recordNak s).pollAt = s.pollAt := rfl
@[simp] theorem recordNak_nak0 : (recordNak s).nak0 = nakBit s.rxbuf 0 := rfl
@[simp] theorem recordNak_nak1 : (recordNak s).nak1 = nakBit s.rxbuf 1 := rfl
@[simp] theorem recordNak_nak2 : (recordNak s).nak2 = nakBit s.rxbuf 2 := rfl
@[simp] theorem recordNak_resOk : (recordNak s).resOk = s.resOk := rfl
@[simp] theorem recordNak_resCause : (recordNak s).resCause = s.resCause := rfl
@[simp] theorem recordNak_resOpc : (recordNak s).resOpc = s.resOpc := rfl
@[simp] theorem recordNak_resLen : (recordNak s).resLen = s.resLen := rfl
@[simp] theorem recordNak_resData : (recordNak s).resData = s.resData := rfl
@[simp] theorem recordNak_resValid : (recordNak s).resValid = s.resValid := rfl
@[simp] theorem recordNak_port : (recordNak s).port = s.port := rfl
@[simp] theorem recordNak_bridge : (recordNak s).bridge = s.bridge := rfl
@[simp] theorem recordNak_turn : (recordNak s).turn = s.turn := rfl
@[simp] theorem recordNak_inputs : (recordNak s).inputs = s.inputs := rfl
@[simp] theorem recordNak_draws : (recordNak s).draws = s.draws := rfl
@[simp] theorem recordNak_hist : (recordNak s).hist = s.hist := rfl
@[simp] theorem recordNak_txh : (recordNak s).txh = s.txh := rfl
@[simp] theorem recordNak_ctrlh : (recordNak s).ctrlh = s.ctrlh := rfl
@[simp] theorem recordNak_resh : (recordNak s).resh = s.resh := rfl
@[simp] theorem recordNak_bus : (recordNak s).bus = s.bus := rfl

end

section
variable (n : Nat) (s : State)

@[simp] theorem pollStart_cfg : (pollStart n s).cfg = s.cfg := rfl
@[simp] theorem pollStart_sess : (pollStart n s).sess = s.sess := rfl
@[simp] theorem pollStart_addr : (pollStart n s).addr = s.addr := rfl
@[simp] theorem pollStart_div : (pollStart n s).div = s.div := rfl
@[simp] theorem pollStart_handle : (pollStart n s).handle = s.handle := rfl
@[simp] theorem pollStart_cb : (pollStart n s).cb = s.cb := rfl
@[simp] theorem pollStart_rxbuf : (pollStart n s).rxbuf = s.rxbuf := rfl
@[simp] theorem pollStart_op : (pollStart n s).op = s.op := rfl
@[simp] theorem pollStart_aAddr : (pollStart n s).aAddr = s.aAddr := rfl
@[simp] theorem pollStart_aReg : (pollStart n s).aReg = s.aReg := rfl
@[simp] theorem pollStart_aVal : (pollStart n s).aVal = s.aVal := rfl
@[simp] theorem pollStart_aCnt : (pollStart n s).aCnt = s.aCnt := rfl
@[simp] theorem pollStart_seq : (pollStart n s).seq = s.seq := rfl
@[simp] theorem pollStart_idx : (pollStart n s).idx = s.idx := rfl
@[simp] theorem pollStart_pollcnt : (pollStart n s).pollcnt = 0#20 := rfl
@[simp] theorem pollStart_expect : (pollStart n s).expect = n := rfl
@[simp] theorem pollStart_busy : (pollStart n s).busy = s.busy := rfl
@[simp] theorem pollStart_pollAt : (pollStart n s).pollAt = .sample := rfl
@[simp] theorem pollStart_nak0 : (pollStart n s).nak0 = s.nak0 := rfl
@[simp] theorem pollStart_nak1 : (pollStart n s).nak1 = s.nak1 := rfl
@[simp] theorem pollStart_nak2 : (pollStart n s).nak2 = s.nak2 := rfl
@[simp] theorem pollStart_resOk : (pollStart n s).resOk = s.resOk := rfl
@[simp] theorem pollStart_resCause : (pollStart n s).resCause = s.resCause := rfl
@[simp] theorem pollStart_resOpc : (pollStart n s).resOpc = s.resOpc := rfl
@[simp] theorem pollStart_resLen : (pollStart n s).resLen = s.resLen := rfl
@[simp] theorem pollStart_resData : (pollStart n s).resData = s.resData := rfl
@[simp] theorem pollStart_resValid : (pollStart n s).resValid = s.resValid := rfl
@[simp] theorem pollStart_port : (pollStart n s).port = s.port := rfl
@[simp] theorem pollStart_bridge : (pollStart n s).bridge = s.bridge := rfl
@[simp] theorem pollStart_turn : (pollStart n s).turn = s.turn := rfl
@[simp] theorem pollStart_inputs : (pollStart n s).inputs = s.inputs := rfl
@[simp] theorem pollStart_draws : (pollStart n s).draws = s.draws := rfl
@[simp] theorem pollStart_hist : (pollStart n s).hist = s.hist := rfl
@[simp] theorem pollStart_txh : (pollStart n s).txh = s.txh := rfl
@[simp] theorem pollStart_ctrlh : (pollStart n s).ctrlh = s.ctrlh := rfl
@[simp] theorem pollStart_resh : (pollStart n s).resh = s.resh := rfl
@[simp] theorem pollStart_bus : (pollStart n s).bus = s.bus := rfl

end

section
variable (s : State)

@[simp] theorem pollCount_cfg : (pollCount s).cfg = s.cfg := rfl
@[simp] theorem pollCount_sess : (pollCount s).sess = s.sess := rfl
@[simp] theorem pollCount_addr : (pollCount s).addr = s.addr := rfl
@[simp] theorem pollCount_div : (pollCount s).div = s.div := rfl
@[simp] theorem pollCount_handle : (pollCount s).handle = s.handle := rfl
@[simp] theorem pollCount_cb : (pollCount s).cb = s.cb := rfl
@[simp] theorem pollCount_rxbuf : (pollCount s).rxbuf = s.rxbuf := rfl
@[simp] theorem pollCount_op : (pollCount s).op = s.op := rfl
@[simp] theorem pollCount_aAddr : (pollCount s).aAddr = s.aAddr := rfl
@[simp] theorem pollCount_aReg : (pollCount s).aReg = s.aReg := rfl
@[simp] theorem pollCount_aVal : (pollCount s).aVal = s.aVal := rfl
@[simp] theorem pollCount_aCnt : (pollCount s).aCnt = s.aCnt := rfl
@[simp] theorem pollCount_seq : (pollCount s).seq = s.seq := rfl
@[simp] theorem pollCount_idx : (pollCount s).idx = s.idx := rfl
@[simp] theorem pollCount_pollcnt : (pollCount s).pollcnt = s.pollcnt := rfl
@[simp] theorem pollCount_expect : (pollCount s).expect = s.expect := rfl
@[simp] theorem pollCount_busy : (pollCount s).busy = s.busy := rfl
@[simp] theorem pollCount_pollAt : (pollCount s).pollAt = .retrieve (rxCount s) := rfl
@[simp] theorem pollCount_nak0 : (pollCount s).nak0 = s.nak0 := rfl
@[simp] theorem pollCount_nak1 : (pollCount s).nak1 = s.nak1 := rfl
@[simp] theorem pollCount_nak2 : (pollCount s).nak2 = s.nak2 := rfl
@[simp] theorem pollCount_resOk : (pollCount s).resOk = s.resOk := rfl
@[simp] theorem pollCount_resCause : (pollCount s).resCause = s.resCause := rfl
@[simp] theorem pollCount_resOpc : (pollCount s).resOpc = s.resOpc := rfl
@[simp] theorem pollCount_resLen : (pollCount s).resLen = s.resLen := rfl
@[simp] theorem pollCount_resData : (pollCount s).resData = s.resData := rfl
@[simp] theorem pollCount_resValid : (pollCount s).resValid = s.resValid := rfl
@[simp] theorem pollCount_port : (pollCount s).port = s.port := rfl
@[simp] theorem pollCount_bridge : (pollCount s).bridge = s.bridge := rfl
@[simp] theorem pollCount_turn : (pollCount s).turn = s.turn := rfl
@[simp] theorem pollCount_inputs : (pollCount s).inputs = s.inputs := rfl
@[simp] theorem pollCount_draws : (pollCount s).draws = s.draws := rfl
@[simp] theorem pollCount_hist : (pollCount s).hist = s.hist ++ [.rxCount (rxCount s)] := rfl
@[simp] theorem pollCount_txh : (pollCount s).txh = s.txh := by
  rw [State.txh, pollCount_hist, List.filterMap_append]; simp [State.txh, Event.burst?]
@[simp] theorem pollCount_ctrlh : (pollCount s).ctrlh = s.ctrlh := by
  rw [State.ctrlh, pollCount_hist, List.filterMap_append]; simp [State.ctrlh, Event.ctrl?]
@[simp] theorem pollCount_resh : (pollCount s).resh = s.resh := by
  rw [State.resh, pollCount_hist, List.filterMap_append]; simp [State.resh, Event.result?]
@[simp] theorem pollCount_bus : (pollCount s).bus = s.bus := rfl

end

section
variable (m : Nat) (s : State)

@[simp] theorem pollRetrieve_cfg : (pollRetrieve m s).cfg = s.cfg := rfl
@[simp] theorem pollRetrieve_sess : (pollRetrieve m s).sess = s.sess := rfl
@[simp] theorem pollRetrieve_addr : (pollRetrieve m s).addr = s.addr := rfl
@[simp] theorem pollRetrieve_div : (pollRetrieve m s).div = s.div := rfl
@[simp] theorem pollRetrieve_handle : (pollRetrieve m s).handle = s.handle := rfl
@[simp] theorem pollRetrieve_cb : (pollRetrieve m s).cb = s.cb := rfl
@[simp] theorem pollRetrieve_rxbuf : (pollRetrieve m s).rxbuf = s.bridge.rxq.take m := rfl
@[simp] theorem pollRetrieve_op : (pollRetrieve m s).op = s.op := rfl
@[simp] theorem pollRetrieve_aAddr : (pollRetrieve m s).aAddr = s.aAddr := rfl
@[simp] theorem pollRetrieve_aReg : (pollRetrieve m s).aReg = s.aReg := rfl
@[simp] theorem pollRetrieve_aVal : (pollRetrieve m s).aVal = s.aVal := rfl
@[simp] theorem pollRetrieve_aCnt : (pollRetrieve m s).aCnt = s.aCnt := rfl
@[simp] theorem pollRetrieve_seq : (pollRetrieve m s).seq = s.seq := rfl
@[simp] theorem pollRetrieve_idx : (pollRetrieve m s).idx = s.idx := rfl
@[simp] theorem pollRetrieve_pollcnt : (pollRetrieve m s).pollcnt = s.pollcnt := rfl
@[simp] theorem pollRetrieve_expect : (pollRetrieve m s).expect = s.expect := rfl
@[simp] theorem pollRetrieve_busy : (pollRetrieve m s).busy = s.busy := rfl
@[simp] theorem pollRetrieve_pollAt : (pollRetrieve m s).pollAt = .idle := rfl
@[simp] theorem pollRetrieve_nak0 : (pollRetrieve m s).nak0 = s.nak0 := rfl
@[simp] theorem pollRetrieve_nak1 : (pollRetrieve m s).nak1 = s.nak1 := rfl
@[simp] theorem pollRetrieve_nak2 : (pollRetrieve m s).nak2 = s.nak2 := rfl
@[simp] theorem pollRetrieve_resOk : (pollRetrieve m s).resOk = s.resOk := rfl
@[simp] theorem pollRetrieve_resCause : (pollRetrieve m s).resCause = s.resCause := rfl
@[simp] theorem pollRetrieve_resOpc : (pollRetrieve m s).resOpc = s.resOpc := rfl
@[simp] theorem pollRetrieve_resLen : (pollRetrieve m s).resLen = s.resLen := rfl
@[simp] theorem pollRetrieve_resData : (pollRetrieve m s).resData = s.resData := rfl
@[simp] theorem pollRetrieve_resValid : (pollRetrieve m s).resValid = s.resValid := rfl
@[simp] theorem pollRetrieve_port : (pollRetrieve m s).port = s.port := rfl
@[simp] theorem pollRetrieve_bridge_held : (pollRetrieve m s).bridge.held = s.bridge.held := rfl
@[simp] theorem pollRetrieve_bridge_others : (pollRetrieve m s).bridge.others = s.bridge.others := rfl
@[simp] theorem pollRetrieve_bridge_settings : (pollRetrieve m s).bridge.settings = s.bridge.settings := rfl
@[simp] theorem pollRetrieve_bridge_dir : (pollRetrieve m s).bridge.dir = s.bridge.dir := rfl
@[simp] theorem pollRetrieve_bridge_val : (pollRetrieve m s).bridge.val = s.bridge.val := rfl
@[simp] theorem pollRetrieve_bridge_scl : (pollRetrieve m s).bridge.scl = s.bridge.scl := rfl
@[simp] theorem pollRetrieve_bridge_cmdq : (pollRetrieve m s).bridge.cmdq = s.bridge.cmdq := rfl
@[simp] theorem pollRetrieve_bridge_resp : (pollRetrieve m s).bridge.resp = s.bridge.resp := rfl
@[simp] theorem pollRetrieve_bridge_rxq : (pollRetrieve m s).bridge.rxq = s.bridge.rxq.drop m := rfl
@[simp] theorem pollRetrieve_turn : (pollRetrieve m s).turn = s.turn := rfl
@[simp] theorem pollRetrieve_inputs : (pollRetrieve m s).inputs = s.inputs := rfl
@[simp] theorem pollRetrieve_draws : (pollRetrieve m s).draws = s.draws := rfl
@[simp] theorem pollRetrieve_hist : (pollRetrieve m s).hist = s.hist ++ [.rxRead (s.bridge.rxq.take m)] := rfl
@[simp] theorem pollRetrieve_txh : (pollRetrieve m s).txh = s.txh := by
  rw [State.txh, pollRetrieve_hist, List.filterMap_append]; simp [State.txh, Event.burst?]
@[simp] theorem pollRetrieve_ctrlh : (pollRetrieve m s).ctrlh = s.ctrlh := by
  rw [State.ctrlh, pollRetrieve_hist, List.filterMap_append]; simp [State.ctrlh, Event.ctrl?]
@[simp] theorem pollRetrieve_resh : (pollRetrieve m s).resh = s.resh := by
  rw [State.resh, pollRetrieve_hist, List.filterMap_append]; simp [State.resh, Event.result?]
@[simp] theorem pollRetrieve_bus : (pollRetrieve m s).bus = s.bus := rfl

end

section
variable (s : State)

@[simp] theorem endTurn_cfg : (endTurn s).cfg = s.cfg := rfl
@[simp] theorem endTurn_sess : (endTurn s).sess = s.sess := rfl
@[simp] theorem endTurn_addr : (endTurn s).addr = s.addr := rfl
@[simp] theorem endTurn_div : (endTurn s).div = s.div := rfl
@[simp] theorem endTurn_handle : (endTurn s).handle = s.handle := rfl
@[simp] theorem endTurn_cb : (endTurn s).cb = s.cb := rfl
@[simp] theorem endTurn_rxbuf : (endTurn s).rxbuf = s.rxbuf := rfl
@[simp] theorem endTurn_op : (endTurn s).op = s.op := rfl
@[simp] theorem endTurn_aAddr : (endTurn s).aAddr = s.aAddr := rfl
@[simp] theorem endTurn_aReg : (endTurn s).aReg = s.aReg := rfl
@[simp] theorem endTurn_aVal : (endTurn s).aVal = s.aVal := rfl
@[simp] theorem endTurn_aCnt : (endTurn s).aCnt = s.aCnt := rfl
@[simp] theorem endTurn_seq : (endTurn s).seq = s.seq := rfl
@[simp] theorem endTurn_idx : (endTurn s).idx = s.idx := rfl
@[simp] theorem endTurn_pollcnt : (endTurn s).pollcnt = s.pollcnt := rfl
@[simp] theorem endTurn_expect : (endTurn s).expect = s.expect := rfl
@[simp] theorem endTurn_busy : (endTurn s).busy = s.busy := rfl
@[simp] theorem endTurn_pollAt : (endTurn s).pollAt = s.pollAt := rfl
@[simp] theorem endTurn_nak0 : (endTurn s).nak0 = s.nak0 := rfl
@[simp] theorem endTurn_nak1 : (endTurn s).nak1 = s.nak1 := rfl
@[simp] theorem endTurn_nak2 : (endTurn s).nak2 = s.nak2 := rfl
@[simp] theorem endTurn_resOk : (endTurn s).resOk = s.resOk := rfl
@[simp] theorem endTurn_resCause : (endTurn s).resCause = s.resCause := rfl
@[simp] theorem endTurn_resOpc : (endTurn s).resOpc = s.resOpc := rfl
@[simp] theorem endTurn_resLen : (endTurn s).resLen = s.resLen := rfl
@[simp] theorem endTurn_resData : (endTurn s).resData = s.resData := rfl
@[simp] theorem endTurn_resValid : (endTurn s).resValid = s.resValid := rfl
@[simp] theorem endTurn_port : (endTurn s).port = s.port := rfl
@[simp] theorem endTurn_bridge : (endTurn s).bridge = s.bridge := rfl
@[simp] theorem endTurn_turn : (endTurn s).turn = .env := rfl
@[simp] theorem endTurn_inputs : (endTurn s).inputs = s.inputs := rfl
@[simp] theorem endTurn_draws : (endTurn s).draws = s.draws := rfl
@[simp] theorem endTurn_hist : (endTurn s).hist = s.hist := rfl
@[simp] theorem endTurn_txh : (endTurn s).txh = s.txh := rfl
@[simp] theorem endTurn_ctrlh : (endTurn s).ctrlh = s.ctrlh := rfl
@[simp] theorem endTurn_resh : (endTurn s).resh = s.resh := rfl
@[simp] theorem endTurn_bus : (endTurn s).bus = s.bus := rfl

end

section
variable (s : State)

@[simp] theorem takeWord_cfg : (takeWord s).cfg = s.cfg := rfl
@[simp] theorem takeWord_sess : (takeWord s).sess = s.sess := rfl
@[simp] theorem takeWord_addr : (takeWord s).addr = s.addr := rfl
@[simp] theorem takeWord_div : (takeWord s).div = s.div := rfl
@[simp] theorem takeWord_handle : (takeWord s).handle = s.handle := rfl
@[simp] theorem takeWord_cb : (takeWord s).cb = s.cb := rfl
@[simp] theorem takeWord_rxbuf : (takeWord s).rxbuf = s.rxbuf := rfl
@[simp] theorem takeWord_op : (takeWord s).op = s.op := rfl
@[simp] theorem takeWord_aAddr : (takeWord s).aAddr = s.aAddr := rfl
@[simp] theorem takeWord_aReg : (takeWord s).aReg = s.aReg := rfl
@[simp] theorem takeWord_aVal : (takeWord s).aVal = s.aVal := rfl
@[simp] theorem takeWord_aCnt : (takeWord s).aCnt = s.aCnt := rfl
@[simp] theorem takeWord_seq : (takeWord s).seq = s.seq := rfl
@[simp] theorem takeWord_idx : (takeWord s).idx = s.idx := rfl
@[simp] theorem takeWord_pollcnt : (takeWord s).pollcnt = s.pollcnt := rfl
@[simp] theorem takeWord_expect : (takeWord s).expect = s.expect := rfl
@[simp] theorem takeWord_busy : (takeWord s).busy = s.busy := rfl
@[simp] theorem takeWord_pollAt : (takeWord s).pollAt = s.pollAt := rfl
@[simp] theorem takeWord_nak0 : (takeWord s).nak0 = s.nak0 := rfl
@[simp] theorem takeWord_nak1 : (takeWord s).nak1 = s.nak1 := rfl
@[simp] theorem takeWord_nak2 : (takeWord s).nak2 = s.nak2 := rfl
@[simp] theorem takeWord_resOk : (takeWord s).resOk = s.resOk := rfl
@[simp] theorem takeWord_resCause : (takeWord s).resCause = s.resCause := rfl
@[simp] theorem takeWord_resOpc : (takeWord s).resOpc = s.resOpc := rfl
@[simp] theorem takeWord_resLen : (takeWord s).resLen = s.resLen := rfl
@[simp] theorem takeWord_resData : (takeWord s).resData = s.resData := rfl
@[simp] theorem takeWord_resValid : (takeWord s).resValid = s.resValid := rfl
@[simp] theorem takeWord_port : (takeWord s).port = none := rfl
@[simp] theorem takeWord_bridge : (takeWord s).bridge = s.bridge := rfl
@[simp] theorem takeWord_turn : (takeWord s).turn = s.turn := rfl
@[simp] theorem takeWord_inputs : (takeWord s).inputs = s.inputs := rfl
@[simp] theorem takeWord_draws : (takeWord s).draws = s.draws := rfl
@[simp] theorem takeWord_hist : (takeWord s).hist = s.hist := rfl
@[simp] theorem takeWord_txh : (takeWord s).txh = s.txh := rfl
@[simp] theorem takeWord_ctrlh : (takeWord s).ctrlh = s.ctrlh := rfl
@[simp] theorem takeWord_resh : (takeWord s).resh = s.resh := rfl
@[simp] theorem takeWord_bus : (takeWord s).bus = s.bus := rfl

end

section
variable (rest : List Byte) (s : State)

@[simp] theorem takeCommand_cfg : (takeCommand rest s).cfg = s.cfg := rfl
@[simp] theorem takeCommand_sess : (takeCommand rest s).sess = s.sess := rfl
@[simp] theorem takeCommand_addr : (takeCommand rest s).addr = s.addr := rfl
@[simp] theorem takeCommand_div : (takeCommand rest s).div = s.div := rfl
@[simp] theorem takeCommand_handle : (takeCommand rest s).handle = s.handle := rfl
@[simp] theorem takeCommand_cb : (takeCommand rest s).cb = s.cb := rfl
@[simp] theorem takeCommand_rxbuf : (takeCommand rest s).rxbuf = s.rxbuf := rfl
@[simp] theorem takeCommand_op : (takeCommand rest s).op = s.op := rfl
@[simp] theorem takeCommand_aAddr : (takeCommand rest s).aAddr = s.aAddr := rfl
@[simp] theorem takeCommand_aReg : (takeCommand rest s).aReg = s.aReg := rfl
@[simp] theorem takeCommand_aVal : (takeCommand rest s).aVal = s.aVal := rfl
@[simp] theorem takeCommand_aCnt : (takeCommand rest s).aCnt = s.aCnt := rfl
@[simp] theorem takeCommand_seq : (takeCommand rest s).seq = s.seq := rfl
@[simp] theorem takeCommand_idx : (takeCommand rest s).idx = s.idx := rfl
@[simp] theorem takeCommand_pollcnt : (takeCommand rest s).pollcnt = s.pollcnt := rfl
@[simp] theorem takeCommand_expect : (takeCommand rest s).expect = s.expect := rfl
@[simp] theorem takeCommand_busy : (takeCommand rest s).busy = s.busy := rfl
@[simp] theorem takeCommand_pollAt : (takeCommand rest s).pollAt = s.pollAt := rfl
@[simp] theorem takeCommand_nak0 : (takeCommand rest s).nak0 = s.nak0 := rfl
@[simp] theorem takeCommand_nak1 : (takeCommand rest s).nak1 = s.nak1 := rfl
@[simp] theorem takeCommand_nak2 : (takeCommand rest s).nak2 = s.nak2 := rfl
@[simp] theorem takeCommand_resOk : (takeCommand rest s).resOk = s.resOk := rfl
@[simp] theorem takeCommand_resCause : (takeCommand rest s).resCause = s.resCause := rfl
@[simp] theorem takeCommand_resOpc : (takeCommand rest s).resOpc = s.resOpc := rfl
@[simp] theorem takeCommand_resLen : (takeCommand rest s).resLen = s.resLen := rfl
@[simp] theorem takeCommand_resData : (takeCommand rest s).resData = s.resData := rfl
@[simp] theorem takeCommand_resValid : (takeCommand rest s).resValid = s.resValid := rfl
@[simp] theorem takeCommand_port : (takeCommand rest s).port = s.port := rfl
@[simp] theorem takeCommand_bridge_held : (takeCommand rest s).bridge.held = s.bridge.held := rfl
@[simp] theorem takeCommand_bridge_others : (takeCommand rest s).bridge.others = s.bridge.others := rfl
@[simp] theorem takeCommand_bridge_settings : (takeCommand rest s).bridge.settings = s.bridge.settings := rfl
@[simp] theorem takeCommand_bridge_dir : (takeCommand rest s).bridge.dir = s.bridge.dir := rfl
@[simp] theorem takeCommand_bridge_val : (takeCommand rest s).bridge.val = s.bridge.val := rfl
@[simp] theorem takeCommand_bridge_scl : (takeCommand rest s).bridge.scl = s.bridge.scl := rfl
@[simp] theorem takeCommand_bridge_cmdq : (takeCommand rest s).bridge.cmdq = rest := rfl
@[simp] theorem takeCommand_bridge_resp : (takeCommand rest s).bridge.resp = s.bridge.resp := rfl
@[simp] theorem takeCommand_bridge_rxq : (takeCommand rest s).bridge.rxq = s.bridge.rxq := rfl
@[simp] theorem takeCommand_turn : (takeCommand rest s).turn = s.turn := rfl
@[simp] theorem takeCommand_inputs : (takeCommand rest s).inputs = s.inputs := rfl
@[simp] theorem takeCommand_draws : (takeCommand rest s).draws = s.draws := rfl
@[simp] theorem takeCommand_hist : (takeCommand rest s).hist = s.hist := rfl
@[simp] theorem takeCommand_txh : (takeCommand rest s).txh = s.txh := rfl
@[simp] theorem takeCommand_ctrlh : (takeCommand rest s).ctrlh = s.ctrlh := rfl
@[simp] theorem takeCommand_resh : (takeCommand rest s).resh = s.resh := rfl
@[simp] theorem takeCommand_bus : (takeCommand rest s).bus = s.bus := rfl

end

section
variable (s : State)

@[simp] theorem resetInput_sess : (resetInput s).sess = .closed := rfl
@[simp] theorem resetInput_busy : (resetInput s).busy = false := rfl
@[simp] theorem resetInput_seq : (resetInput s).seq = .idle := rfl
@[simp] theorem resetInput_cb : (resetInput s).cb = [] := rfl
@[simp] theorem resetInput_rxbuf : (resetInput s).rxbuf = [] := rfl
@[simp] theorem resetInput_handle : (resetInput s).handle = false := rfl
@[simp] theorem resetInput_pollAt : (resetInput s).pollAt = .idle := rfl
@[simp] theorem resetInput_resOk : (resetInput s).resOk = false := rfl
@[simp] theorem resetInput_resCause : (resetInput s).resCause = .none := rfl
@[simp] theorem resetInput_resLen : (resetInput s).resLen = 0x00#8 := rfl
@[simp] theorem resetInput_resData : (resetInput s).resData = [] := rfl
@[simp] theorem resetInput_resValid : (resetInput s).resValid = false := rfl
@[simp] theorem resetInput_div : (resetInput s).div = s.cfg.clkdiv := rfl
@[simp] theorem resetInput_pollcnt : (resetInput s).pollcnt = 0#20 := rfl
@[simp] theorem resetInput_cfg : (resetInput s).cfg = s.cfg := rfl
@[simp] theorem resetInput_port : (resetInput s).port = s.port := rfl
@[simp] theorem resetInput_turn : (resetInput s).turn = s.turn := rfl
@[simp] theorem resetInput_inputs : (resetInput s).inputs = s.inputs := rfl
@[simp] theorem resetInput_hist : (resetInput s).hist = s.hist := rfl
@[simp] theorem resetInput_txh : (resetInput s).txh = s.txh := rfl
@[simp] theorem resetInput_ctrlh : (resetInput s).ctrlh = s.ctrlh := rfl
@[simp] theorem resetInput_resh : (resetInput s).resh = s.resh := rfl
@[simp] theorem resetInput_bus : (resetInput s).bus = s.bus := rfl

end

section
variable (s : State)

@[simp] theorem clockLow_cfg : (clockLow s).cfg = s.cfg := rfl
@[simp] theorem clockLow_sess : (clockLow s).sess = s.sess := rfl
@[simp] theorem clockLow_addr : (clockLow s).addr = s.addr := rfl
@[simp] theorem clockLow_div : (clockLow s).div = s.div := rfl
@[simp] theorem clockLow_handle : (clockLow s).handle = s.handle := rfl
@[simp] theorem clockLow_cb : (clockLow s).cb = s.cb := rfl
@[simp] theorem clockLow_rxbuf : (clockLow s).rxbuf = s.rxbuf := rfl
@[simp] theorem clockLow_op : (clockLow s).op = s.op := rfl
@[simp] theorem clockLow_aAddr : (clockLow s).aAddr = s.aAddr := rfl
@[simp] theorem clockLow_aReg : (clockLow s).aReg = s.aReg := rfl
@[simp] theorem clockLow_aVal : (clockLow s).aVal = s.aVal := rfl
@[simp] theorem clockLow_aCnt : (clockLow s).aCnt = s.aCnt := rfl
@[simp] theorem clockLow_seq : (clockLow s).seq = s.seq := rfl
@[simp] theorem clockLow_idx : (clockLow s).idx = s.idx := rfl
@[simp] theorem clockLow_pollcnt : (clockLow s).pollcnt = s.pollcnt := rfl
@[simp] theorem clockLow_expect : (clockLow s).expect = s.expect := rfl
@[simp] theorem clockLow_busy : (clockLow s).busy = s.busy := rfl
@[simp] theorem clockLow_pollAt : (clockLow s).pollAt = s.pollAt := rfl
@[simp] theorem clockLow_nak0 : (clockLow s).nak0 = s.nak0 := rfl
@[simp] theorem clockLow_nak1 : (clockLow s).nak1 = s.nak1 := rfl
@[simp] theorem clockLow_nak2 : (clockLow s).nak2 = s.nak2 := rfl
@[simp] theorem clockLow_resOk : (clockLow s).resOk = s.resOk := rfl
@[simp] theorem clockLow_resCause : (clockLow s).resCause = s.resCause := rfl
@[simp] theorem clockLow_resOpc : (clockLow s).resOpc = s.resOpc := rfl
@[simp] theorem clockLow_resLen : (clockLow s).resLen = s.resLen := rfl
@[simp] theorem clockLow_resData : (clockLow s).resData = s.resData := rfl
@[simp] theorem clockLow_resValid : (clockLow s).resValid = s.resValid := rfl
@[simp] theorem clockLow_port : (clockLow s).port = s.port := rfl
@[simp] theorem clockLow_bridge_held : (clockLow s).bridge.held = s.bridge.held := rfl
@[simp] theorem clockLow_bridge_others : (clockLow s).bridge.others = s.bridge.others := rfl
@[simp] theorem clockLow_bridge_settings : (clockLow s).bridge.settings = s.bridge.settings := rfl
@[simp] theorem clockLow_bridge_dir : (clockLow s).bridge.dir = s.bridge.dir := rfl
@[simp] theorem clockLow_bridge_val : (clockLow s).bridge.val = s.bridge.val := rfl
@[simp] theorem clockLow_bridge_scl : (clockLow s).bridge.scl = false := rfl
@[simp] theorem clockLow_bridge_cmdq : (clockLow s).bridge.cmdq = s.bridge.cmdq := rfl
@[simp] theorem clockLow_bridge_resp : (clockLow s).bridge.resp = s.bridge.resp := rfl
@[simp] theorem clockLow_bridge_rxq : (clockLow s).bridge.rxq = s.bridge.rxq := rfl
@[simp] theorem clockLow_turn : (clockLow s).turn = s.turn := rfl
@[simp] theorem clockLow_inputs : (clockLow s).inputs = s.inputs := rfl
@[simp] theorem clockLow_draws : (clockLow s).draws = s.draws := rfl
@[simp] theorem clockLow_hist : (clockLow s).hist = s.hist := rfl
@[simp] theorem clockLow_txh : (clockLow s).txh = s.txh := rfl
@[simp] theorem clockLow_ctrlh : (clockLow s).ctrlh = s.ctrlh := rfl
@[simp] theorem clockLow_resh : (clockLow s).resh = s.resh := rfl
@[simp] theorem clockLow_bus : (clockLow s).bus = s.bus := rfl

end

section
variable (s : State)

@[simp] theorem sampleCount_cfg : (sampleCount s).cfg = s.cfg := rfl
@[simp] theorem sampleCount_sess : (sampleCount s).sess = s.sess := rfl
@[simp] theorem sampleCount_addr : (sampleCount s).addr = s.addr := rfl
@[simp] theorem sampleCount_div : (sampleCount s).div = s.div := rfl
@[simp] theorem sampleCount_handle : (sampleCount s).handle = s.handle := rfl
@[simp] theorem sampleCount_cb : (sampleCount s).cb = s.cb := rfl
@[simp] theorem sampleCount_rxbuf : (sampleCount s).rxbuf = s.rxbuf := rfl
@[simp] theorem sampleCount_op : (sampleCount s).op = s.op := rfl
@[simp] theorem sampleCount_aAddr : (sampleCount s).aAddr = s.aAddr := rfl
@[simp] theorem sampleCount_aReg : (sampleCount s).aReg = s.aReg := rfl
@[simp] theorem sampleCount_aVal : (sampleCount s).aVal = s.aVal := rfl
@[simp] theorem sampleCount_aCnt : (sampleCount s).aCnt = s.aCnt := rfl
@[simp] theorem sampleCount_seq : (sampleCount s).seq = s.seq := rfl
@[simp] theorem sampleCount_idx : (sampleCount s).idx = s.idx := rfl
@[simp] theorem sampleCount_pollcnt : (sampleCount s).pollcnt = s.pollcnt := rfl
@[simp] theorem sampleCount_expect : (sampleCount s).expect = s.expect := rfl
@[simp] theorem sampleCount_busy : (sampleCount s).busy = s.busy := rfl
@[simp] theorem sampleCount_pollAt : (sampleCount s).pollAt = s.pollAt := rfl
@[simp] theorem sampleCount_nak0 : (sampleCount s).nak0 = s.nak0 := rfl
@[simp] theorem sampleCount_nak1 : (sampleCount s).nak1 = s.nak1 := rfl
@[simp] theorem sampleCount_nak2 : (sampleCount s).nak2 = s.nak2 := rfl
@[simp] theorem sampleCount_resOk : (sampleCount s).resOk = s.resOk := rfl
@[simp] theorem sampleCount_resCause : (sampleCount s).resCause = s.resCause := rfl
@[simp] theorem sampleCount_resOpc : (sampleCount s).resOpc = s.resOpc := rfl
@[simp] theorem sampleCount_resLen : (sampleCount s).resLen = s.resLen := rfl
@[simp] theorem sampleCount_resData : (sampleCount s).resData = s.resData := rfl
@[simp] theorem sampleCount_resValid : (sampleCount s).resValid = s.resValid := rfl
@[simp] theorem sampleCount_port : (sampleCount s).port = s.port := rfl
@[simp] theorem sampleCount_bridge : (sampleCount s).bridge = s.bridge := rfl
@[simp] theorem sampleCount_turn : (sampleCount s).turn = s.turn := rfl
@[simp] theorem sampleCount_inputs : (sampleCount s).inputs = s.inputs := rfl
@[simp] theorem sampleCount_draws : (sampleCount s).draws = s.draws := rfl
@[simp] theorem sampleCount_hist : (sampleCount s).hist = s.hist ++ [.rxCount (rxCount s)] := rfl
@[simp] theorem sampleCount_txh : (sampleCount s).txh = s.txh := by
  rw [State.txh, sampleCount_hist, List.filterMap_append]; simp [State.txh, Event.burst?]
@[simp] theorem sampleCount_ctrlh : (sampleCount s).ctrlh = s.ctrlh := by
  rw [State.ctrlh, sampleCount_hist, List.filterMap_append]; simp [State.ctrlh, Event.ctrl?]
@[simp] theorem sampleCount_resh : (sampleCount s).resh = s.resh := by
  rw [State.resh, sampleCount_hist, List.filterMap_append]; simp [State.resh, Event.result?]
@[simp] theorem sampleCount_bus : (sampleCount s).bus = s.bus := rfl

end

section
variable (e : Event) (s : State)

@[simp] theorem logEvent_cfg : (logEvent e s).cfg = s.cfg := rfl
@[simp] theorem logEvent_sess : (logEvent e s).sess = s.sess := rfl
@[simp] theorem logEvent_addr : (logEvent e s).addr = s.addr := rfl
@[simp] theorem logEvent_div : (logEvent e s).div = s.div := rfl
@[simp] theorem logEvent_handle : (logEvent e s).handle = s.handle := rfl
@[simp] theorem logEvent_cb : (logEvent e s).cb = s.cb := rfl
@[simp] theorem logEvent_rxbuf : (logEvent e s).rxbuf = s.rxbuf := rfl
@[simp] theorem logEvent_op : (logEvent e s).op = s.op := rfl
@[simp] theorem logEvent_aAddr : (logEvent e s).aAddr = s.aAddr := rfl
@[simp] theorem logEvent_aReg : (logEvent e s).aReg = s.aReg := rfl
@[simp] theorem logEvent_aVal : (logEvent e s).aVal = s.aVal := rfl
@[simp] theorem logEvent_aCnt : (logEvent e s).aCnt = s.aCnt := rfl
@[simp] theorem logEvent_seq : (logEvent e s).seq = s.seq := rfl
@[simp] theorem logEvent_idx : (logEvent e s).idx = s.idx := rfl
@[simp] theorem logEvent_pollcnt : (logEvent e s).pollcnt = s.pollcnt := rfl
@[simp] theorem logEvent_expect : (logEvent e s).expect = s.expect := rfl
@[simp] theorem logEvent_busy : (logEvent e s).busy = s.busy := rfl
@[simp] theorem logEvent_pollAt : (logEvent e s).pollAt = s.pollAt := rfl
@[simp] theorem logEvent_nak0 : (logEvent e s).nak0 = s.nak0 := rfl
@[simp] theorem logEvent_nak1 : (logEvent e s).nak1 = s.nak1 := rfl
@[simp] theorem logEvent_nak2 : (logEvent e s).nak2 = s.nak2 := rfl
@[simp] theorem logEvent_resOk : (logEvent e s).resOk = s.resOk := rfl
@[simp] theorem logEvent_resCause : (logEvent e s).resCause = s.resCause := rfl
@[simp] theorem logEvent_resOpc : (logEvent e s).resOpc = s.resOpc := rfl
@[simp] theorem logEvent_resLen : (logEvent e s).resLen = s.resLen := rfl
@[simp] theorem logEvent_resData : (logEvent e s).resData = s.resData := rfl
@[simp] theorem logEvent_resValid : (logEvent e s).resValid = s.resValid := rfl
@[simp] theorem logEvent_port : (logEvent e s).port = s.port := rfl
@[simp] theorem logEvent_bridge : (logEvent e s).bridge = s.bridge := rfl
@[simp] theorem logEvent_turn : (logEvent e s).turn = s.turn := rfl
@[simp] theorem logEvent_inputs : (logEvent e s).inputs = s.inputs := rfl
@[simp] theorem logEvent_draws : (logEvent e s).draws = s.draws := rfl
@[simp] theorem logEvent_hist : (logEvent e s).hist = s.hist ++ [e] := rfl
@[simp] theorem logEvent_txh : (logEvent e s).txh = s.txh ++ (Event.burst? e).toList := by
  rw [State.txh, logEvent_hist, List.filterMap_append]; cases e <;> rfl
@[simp] theorem logEvent_ctrlh : (logEvent e s).ctrlh = s.ctrlh ++ (Event.ctrl? e).toList := by
  rw [State.ctrlh, logEvent_hist, List.filterMap_append]; cases e <;> rfl
@[simp] theorem logEvent_resh : (logEvent e s).resh = s.resh ++ (Event.result? e).toList := by
  rw [State.resh, logEvent_hist, List.filterMap_append]; cases e <;> rfl
@[simp] theorem logEvent_bus : (logEvent e s).bus = s.bus := rfl

end

end Sys2Proof.Machine
end

