-- ==== Sys2Proof/Laws/Ops.lean ====
section
/-! SUPPORT. Ops: for each shared operation, once, everything it can do. -/

namespace Sys2Proof.Machine

/-! ## Outcomes -/

theorem mapNext_eq_next {f : State → State} {r : StepOutcome} {t : State} :
    mapNext f r = .next t ↔ ∃ u, r = .next u ∧ t = f u := by
  cases r <;> simp [mapNext, eq_comm]

@[simp] theorem mapNext_next (f : State → State) (s : State) : mapNext f (.next s) = .next (f s) := rfl

/-! ## Host operations -/

theorem hostOperation_of_idle {i : Instr} {o : HostOp} {w : HostWord} {adv : State → StepOutcome} {s : State}
    (h : s.busy = false) : hostOperation i o w adv s = .next (accept o w s) := by
  simp [hostOperation, h]

theorem hostOperation_of_other {i : Instr} {o : HostOp} {w : HostWord} {adv : State → StepOutcome} {s : State}
    (h : s.busy = true) (hi : inProgress s ≠ i) : hostOperation i o w adv s = .next s := by
  simp [hostOperation, h, hi]

theorem hostOperation_of_inProgress {i : Instr} {o : HostOp} {w : HostWord} {adv : State → StepOutcome} {s : State}
    (h : s.busy = true) (hi : inProgress s = i) : hostOperation i o w adv s = adv s := by
  simp [hostOperation, h, hi]

/-- A host operation accepts its word, or waits, or runs the action of its SEQ state. -/
theorem hostOperation_cases {i : Instr} {o : HostOp} {w : HostWord} {adv : State → StepOutcome} {s t : State}
    (h : hostOperation i o w adv s = .next t) :
    (s.busy = false ∧ t = accept o w s) ∨ (s.busy = true ∧ inProgress s ≠ i ∧ t = s) ∨
      (s.busy = true ∧ inProgress s = i ∧ adv s = .next t) := by
  unfold hostOperation at h
  split at h
  · split at h
    · exact .inr (.inr ⟨‹_›, ‹_›, h⟩)
    · exact .inr (.inl ⟨‹_›, ‹_›, by cases h; rfl⟩)
  · exact .inl ⟨Bool.eq_false_of_not_eq_true ‹_›, by cases h; rfl⟩

/-! ## Inputs and free values -/

/-- Using a reply changes the inputs and the draw counter only. -/
theorem takeGrant_eq (s : State) : ∃ i d, takeGrant s = { s with inputs := i, draws := d } := by
  unfold takeGrant
  split <;> exact ⟨_, _, rfl⟩

/-- Using a level changes the inputs and the draw counter only. -/
theorem takeLevel_eq (s : State) : ∃ i d, takeLevel s = { s with inputs := i, draws := d } := by
  unfold takeLevel
  split
  · exact ⟨_, _, rfl⟩
  · split <;> exact ⟨_, _, rfl⟩

/-- Sampling changes the inputs and the draw counter only. -/
theorem sampleBits_eq (k : Nat) (acc : Byte) (s : State) :
    ∃ i d, (sampleBits k acc s).2 = { s with inputs := i, draws := d } := by
  induction k generalizing acc s with
  | zero => exact ⟨_, _, rfl⟩
  | succ k ih =>
    obtain ⟨i, d, h⟩ := ih ((acc <<< 1) ||| (BitVec.ofBool (sdaLevel s)).setWidth 8) (takeLevel s)
    obtain ⟨i', d', h'⟩ := takeLevel_eq s
    exact ⟨i, d, by rw [sampleBits, h, h']⟩

/-- Using an event changes the inputs and the draw counter only. -/
theorem takeEvent_eq (s : State) : ∃ i d, takeEvent s = { s with inputs := i, draws := d } := by
  unfold takeEvent
  split <;> exact ⟨_, _, rfl⟩

/-! ## Polling -/

/-- One sample matches, or counts, or finds the bound reached. -/
theorem pollSample_cases (n : Nat) (s : State) :
    (s.pollcnt.toNat < Config.pollMax ∧ rxCount s = n ∧ pollSample n s = { sampleCount s with pollAt := .count }) ∨
      (s.pollcnt.toNat < Config.pollMax ∧ rxCount s ≠ n ∧
        pollSample n s = { sampleCount s with pollcnt := s.pollcnt + 1#20 }) ∨
      (Config.pollMax ≤ s.pollcnt.toNat ∧ pollSample n s = { s with pollAt := .count }) := by
  unfold pollSample
  split
  · split
    · exact .inl ⟨‹_›, ‹_›, rfl⟩
    · exact .inr (.inl ⟨‹_›, ‹_›, rfl⟩)
  · exact .inr (.inr ⟨Nat.le_of_not_lt ‹_›, rfl⟩)

/-- One step of a poll starts it, samples, counts, or retrieves. -/
theorem execPoll_cases {n : Nat} {s t : State} (h : execPoll n s = .next t) :
    (s.pollAt = .idle ∧ t = pollStart n s) ∨ (s.pollAt = .sample ∧ t = pollSample n s) ∨
      (s.pollAt = .count ∧ t = pollCount s) ∨ (∃ m, s.pollAt = .retrieve m ∧ t = pollRetrieve m s) := by
  unfold execPoll at h
  split at h <;> cases h <;> simp [*]

/-! ## Another session's use of the bridge -/

/-- Another session leaves the bridge as it likes, but for this session's hold, and nothing else changes. -/
@[simp] theorem otherUse_bridge (b : Bridge) (s : State) :
    (otherUse b s).bridge = { b with held := s.bridge.held } := rfl

/-- Another session changes nothing but the bridge. -/
theorem otherUse_frame (b : Bridge) (s : State) : { otherUse b s with bridge := s.bridge } = s := rfl

/-! ## Validation -/

/-- The validator fails on the length, fails on an acknowledgement bit, succeeds, or leaves the result open. -/
theorem validate_cases (isRead : Bool) (s : State) :
    (lengthCheck s.cfg.policy s.expect s.rxlen = .wrong ∧ validate isRead s = fail .length s) ∨
      (lengthCheck s.cfg.policy s.expect s.rxlen = .unspecified ∧ validate isRead s = lenientResult isRead s) ∨
      (lengthCheck s.cfg.policy s.expect s.rxlen = .usable ∧ anyNak s.rxbuf = true ∧
        validate isRead s = fail .ack (recordNak s)) ∨
      (lengthCheck s.cfg.policy s.expect s.rxlen = .usable ∧ anyNak s.rxbuf = false ∧
        validate isRead s = succeed (if isRead then s.rxbuf.drop 3 else []) (recordNak s)) := by
  unfold validate checkAcks
  split
  · exact .inl ⟨‹_›, rfl⟩
  · exact .inr (.inl ⟨‹_›, rfl⟩)
  · split
    · exact .inr (.inr (.inl ⟨‹_›, ‹_›, rfl⟩))
    · exact .inr (.inr (.inr ⟨‹_›, Bool.eq_false_of_not_eq_true ‹_›, rfl⟩))

/-- LENIENT never draws LENGTH (R205). -/
@[simp] theorem toCause_ne_length (c : LenientCause) : c.toCause ≠ .length := by
  cases c <;> decide

/-- The result left open is a success with at most 255 bytes, none for a write, or a failure, never with LENGTH. -/
theorem lenientResult_cases (isRead : Bool) (s : State) :
    (∃ d, d.length ≤ 255 ∧ (isRead = false → d = []) ∧ lenientResult isRead s = drawn (succeed d s)) ∨
      (∃ c, c ≠ .length ∧ lenientResult isRead s = drawn (fail c s)) := by
  unfold lenientResult
  split
  · refine .inl ⟨_, ?_, ?_, rfl⟩
    · split <;> simp
    · intro h; simp [h]
  · exact .inr ⟨_, toCause_ne_length _, rfl⟩

/-- A retrieval that is usable holds the three status bytes and at most 255 data bytes; under STRICT it has the
expected length. -/
theorem lengthCheck_usable {p : ShortReadPolicy} {n m : Nat} (h : lengthCheck p n m = .usable) :
    3 ≤ m ∧ m ≤ 258 ∧ (p = .strict → m = n) := by
  unfold lengthCheck at h
  split at h
  · cases h
  · split at h
    · cases h
    · rename_i h1 h2
      exact ⟨by omega, by omega, fun hp => by by_contra hne; exact h1 ⟨hne, hp⟩⟩

/-! ## Bridge commands -/

/-- A bridge command changes the bridge, the bus, the inputs and the draw counter only. -/
theorem exec_bridgeCommand_frame {i : Instr} {s t : State} (hl : i.level = .bridgeCommand) (h : exec i s = .next t) :
    ∃ b e n d, t = { s with bridge := b, bus := e, inputs := n, draws := d } := by
  cases i <;> simp only [Instr.level, reduceCtorEq] at hl <;>
    simp only [exec, execGpio, execByteOut, execByteIn, execBitIn, execBitOut, execClkNoDiv5, execClkNoAdapt,
      execClkPhase, execLoopOff, execSendNow, execSetDiv, execSync1, execSync2, Host.Outcome.next.injEq] at h <;>
    subst h
  case byteIn =>
    obtain ⟨i, d, hs⟩ := sampleBits_eq 8 0x00#8 s
    rw [hs]
    exact ⟨_, _, _, _, rfl⟩
  case bitIn =>
    obtain ⟨i, d, hs⟩ := takeLevel_eq s
    rw [hs]
    exact ⟨_, _, _, _, rfl⟩
  all_goals exact ⟨_, _, _, _, rfl⟩

/-- A bridge command always has a next state. -/
theorem exec_bridgeCommand_completes {i : Instr} (hl : i.level = .bridgeCommand) (s : State) :
    ∃ t, exec i s = .next t := by
  cases i <;> simp only [Instr.level, reduceCtorEq] at hl <;> exact ⟨_, rfl⟩

/-- What the operand readers of the command stream answer. -/
theorem decodeGpio_ok {bs rest : List Byte} {i : Instr} (h : decodeGpio bs = .ok (i, rest)) :
    ∃ d v, i = .gpio d v ∧ bs = d :: v :: rest := by
  unfold decodeGpio at h
  split at h
  · cases h; exact ⟨_, _, rfl, rfl⟩
  · cases h

theorem decodeByteOut_ok {bs rest : List Byte} {i : Instr} (h : decodeByteOut bs = .ok (i, rest)) :
    ∃ v, i = .byteOut v ∧ bs = 0x00#8 :: 0x00#8 :: v :: rest := by
  unfold decodeByteOut at h
  split at h
  · split at h
    · rename_i hz
      obtain ⟨rfl, rfl⟩ := hz
      cases h; exact ⟨_, rfl, rfl⟩
    · cases h
  · cases h

theorem decodeByteIn_ok {bs rest : List Byte} {i : Instr} (h : decodeByteIn bs = .ok (i, rest)) :
    i = .byteIn ∧ bs = 0x00#8 :: 0x00#8 :: rest := by
  unfold decodeByteIn at h
  split at h
  · split at h
    · rename_i hz
      obtain ⟨rfl, rfl⟩ := hz
      cases h; exact ⟨rfl, rfl⟩
    · cases h
  · cases h

theorem decodeBitIn_ok {bs rest : List Byte} {i : Instr} (h : decodeBitIn bs = .ok (i, rest)) :
    i = .bitIn ∧ bs = 0x00#8 :: rest := by
  unfold decodeBitIn at h
  split at h
  · split at h
    · rename_i hz
      subst hz
      cases h; exact ⟨rfl, rfl⟩
    · cases h
  · cases h

theorem decodeBitOut_ok {bs rest : List Byte} {i : Instr} (h : decodeBitOut bs = .ok (i, rest)) :
    ∃ b, i = .bitOut b ∧ bs = 0x00#8 :: b :: rest := by
  unfold decodeBitOut at h
  split at h
  · split at h
    · rename_i hz
      subst hz
      cases h; exact ⟨_, rfl, rfl⟩
    · cases h
  · cases h

theorem decodeSetDiv_ok {bs rest : List Byte} {i : Instr} (h : decodeSetDiv bs = .ok (i, rest)) :
    ∃ l u, i = .setDiv l u ∧ bs = l :: u :: rest := by
  unfold decodeSetDiv at h
  split at h
  · cases h; exact ⟨_, _, rfl, rfl⟩
  · cases h

/-- The decoder of the command stream answers bridge commands only. -/
theorem decodeBridge_level {bs : List Byte} {i : Instr} {rest : List Byte} (h : decodeBridge bs = .ok (i, rest)) :
    i.level = .bridgeCommand := by
  cases bs with
  | nil => cases h
  | cons op tl =>
    unfold decodeBridge at h
    dsimp only at h
    by_cases h0 : op = 0x80#8
    · rw [if_pos h0] at h; obtain ⟨_, _, rfl, -⟩ := decodeGpio_ok h; rfl
    rw [if_neg h0] at h
    by_cases h1 : op = 0x11#8
    · rw [if_pos h1] at h; obtain ⟨_, rfl, -⟩ := decodeByteOut_ok h; rfl
    rw [if_neg h1] at h
    by_cases h2 : op = 0x20#8
    · rw [if_pos h2] at h; obtain ⟨rfl, -⟩ := decodeByteIn_ok h; rfl
    rw [if_neg h2] at h
    by_cases h3 : op = 0x22#8
    · rw [if_pos h3] at h; obtain ⟨rfl, -⟩ := decodeBitIn_ok h; rfl
    rw [if_neg h3] at h
    by_cases h4 : op = 0x13#8
    · rw [if_pos h4] at h; obtain ⟨_, rfl, -⟩ := decodeBitOut_ok h; rfl
    rw [if_neg h4] at h
    by_cases h5 : op = 0x86#8
    · rw [if_pos h5] at h; obtain ⟨_, _, rfl, -⟩ := decodeSetDiv_ok h; rfl
    rw [if_neg h5] at h
    by_cases h6 : op = 0x8A#8
    · rw [if_pos h6] at h; cases h; rfl
    rw [if_neg h6] at h
    by_cases h7 : op = 0x97#8
    · rw [if_pos h7] at h; cases h; rfl
    rw [if_neg h7] at h
    by_cases h8 : op = 0x8C#8
    · rw [if_pos h8] at h; cases h; rfl
    rw [if_neg h8] at h
    by_cases h9 : op = 0x85#8
    · rw [if_pos h9] at h; cases h; rfl
    rw [if_neg h9] at h
    by_cases h10 : op = 0x87#8
    · rw [if_pos h10] at h; cases h; rfl
    rw [if_neg h10] at h
    by_cases h11 : op = 0xAA#8
    · rw [if_pos h11] at h; cases h; rfl
    rw [if_neg h11] at h
    by_cases h12 : op = 0xAB#8
    · rw [if_pos h12] at h; cases h; rfl
    rw [if_neg h12] at h
    cases h

/-- The decoder of host words answers host operations only. -/
theorem decodeHost_level {w : HostWord} {i : Instr} (h : decodeHost w = .ok i) : i.level = .hostOperation := by
  unfold decodeHost at h
  repeat' split at h
  all_goals first
    | (simp only [Except.ok.injEq] at h; subst h; rfl)
    | cases h

end Sys2Proof.Machine
end

