-- ==== Sys2Proof/Laws/PerInstr.lean ====
section
/-! SUPPORT. PerInstr: the family EncodedLength, a law about every instruction as syntax, one lemma per constructor. -/

namespace Sys2Proof.Laws.EncodedLength

/-- The encoding of an instruction is as long as R90 and R100 say: a host operation has a host word and no command
bytes; a primitive has neither; a bridge command has the number of bytes its opcode, its first byte, is given. -/
def Statement (i : Instr) : Prop :=
  match i.level with
  | .hostOperation => (encodeHost i).isSome = true ∧ encodeBridge i = none
  | .primitive => encodeHost i = none ∧ encodeBridge i = none
  | .bridgeCommand =>
    encodeHost i = none ∧
      ∃ op rest, encodeBridge i = some (op :: rest) ∧ commandLength op = some (rest.length + 1)

theorem openSession (a : BitVec 7) : Statement (.openSession a) := ⟨rfl, rfl⟩

theorem closeSession : Statement .closeSession := ⟨rfl, rfl⟩

theorem setAddr (a : BitVec 7) : Statement (.setAddr a) := ⟨rfl, rfl⟩

theorem rdReg (r n : Byte) : Statement (.rdReg r n) := ⟨rfl, rfl⟩

theorem wrReg (r v : Byte) : Statement (.wrReg r v) := ⟨rfl, rfl⟩

theorem start : Statement .start := ⟨rfl, rfl⟩

theorem stop : Statement .stop := ⟨rfl, rfl⟩

theorem wrByte (v : Byte) : Statement (.wrByte v) := ⟨rfl, rfl⟩

theorem rdByte (w : Bool) : Statement (.rdByte w) := ⟨rfl, rfl⟩

theorem poll (n : Nat) : Statement (.poll n) := ⟨rfl, rfl⟩

theorem gpio (d v : Byte) : Statement (.gpio d v) := ⟨rfl, _, _, rfl, rfl⟩

theorem byteOut (v : Byte) : Statement (.byteOut v) := ⟨rfl, _, _, rfl, rfl⟩

theorem byteIn : Statement .byteIn := ⟨rfl, _, _, rfl, rfl⟩

theorem bitIn : Statement .bitIn := ⟨rfl, _, _, rfl, rfl⟩

theorem bitOut (b : Byte) : Statement (.bitOut b) := ⟨rfl, _, _, rfl, rfl⟩

theorem clkNoDiv5 : Statement .clkNoDiv5 := ⟨rfl, _, _, rfl, rfl⟩

theorem clkNoAdapt : Statement .clkNoAdapt := ⟨rfl, _, _, rfl, rfl⟩

theorem clkPhase : Statement .clkPhase := ⟨rfl, _, _, rfl, rfl⟩

theorem loopOff : Statement .loopOff := ⟨rfl, _, _, rfl, rfl⟩

theorem sendNow : Statement .sendNow := ⟨rfl, _, _, rfl, rfl⟩

theorem setDiv (l h : Byte) : Statement (.setDiv l h) := ⟨rfl, _, _, rfl, rfl⟩

theorem sync1 : Statement .sync1 := ⟨rfl, _, _, rfl, rfl⟩

theorem sync2 : Statement .sync2 := ⟨rfl, _, _, rfl, rfl⟩

end Sys2Proof.Laws.EncodedLength
end

