-- ==== Sys2Proof/Laws/Step.lean ====
section
/-! SUPPORT. Step: everything one step of each agent can do, said once. -/

namespace Sys2Proof.Machine

theorem step_controller {s : State} (h : s.turn = .controller) : step s = controllerTurn s := by
  simp [step, stepTurn, h]

theorem step_bridge {s : State} (h : s.turn = .bridge) : step s = bridgeTurn s := by
  simp [step, stepTurn, h]

theorem step_env {s : State} (h : s.turn = .env) :
    step s = .next (applyEvent (nextEvent s) (takeEvent s)) := by
  simp [step, stepTurn, envTurn, h]

/-- The environment's duty gives that no other session acts while this one holds the bridge (R221). -/
theorem undisturbed_of_held {s : State} (he : ExclusiveHold s) (hh : s.bridge.held = true) : Undisturbed s :=
  fun ht b hb => by simpa [hh] using (he.2 ht b hb).1

/-- An idle controller waits, answers an illegal word, or begins the operation its port asks for. -/
theorem controllerTurn_idle_cases {s t : State} (hb : s.busy = false) (h : controllerTurn s = .next t) :
    (s.port = none ∧ t = endTurn s) ∨
      (∃ w e, s.port = some w ∧ decodeHost w = .error e ∧ t = endTurn (takeWord (failIllegal w s))) ∨
      (∃ w i u, s.port = some w ∧ decodeHost w = .ok i ∧ exec i s = .next u ∧ t = endTurn (takeWord u)) := by
  unfold controllerTurn fetch fetchIdle at h
  simp only [hb, Bool.false_eq_true, if_false] at h
  cases hp : s.port with
  | none => simp only [hp] at h; cases h; exact .inl ⟨rfl, rfl⟩
  | some w =>
    simp only [hp] at h
    cases hd : decodeHost w with
    | error e => simp only [hd] at h; cases h; exact .inr (.inl ⟨w, e, rfl, hd, rfl⟩)
    | ok i =>
      simp only [hd] at h
      obtain ⟨u, hu, rfl⟩ := mapNext_eq_next.1 h
      exact .inr (.inr ⟨w, i, u, rfl, hd, hu, rfl⟩)

/-- A busy controller polls, runs a primitive of the build, or runs the action of its SEQ state. -/
theorem controllerTurn_busy_cases {s t : State} (hb : s.busy = true) (h : controllerTurn s = .next t) :
    (pollsHere s = true ∧ ∃ u, execPoll s.expect s = .next u ∧
        t = endTurn (if pollEnds s then afterPoll u else u)) ∨
      (pollsHere s = false ∧ ∃ p i u, s.seq = .tBuild p ∧ primitiveAt s p = some i ∧ exec i s = .next u ∧
        t = endTurn (afterPrimitive u)) ∨
      (pollsHere s = false ∧ (∀ p, s.seq = .tBuild p → primitiveAt s p = none) ∧
        ∃ u, exec (inProgress s) s = .next u ∧ t = endTurn u) := by
  unfold controllerTurn fetch fetchBusy at h
  simp only [hb, if_true] at h
  by_cases hp : pollsHere s = true
  · simp only [hp, if_true] at h
    obtain ⟨u, hu, rfl⟩ := mapNext_eq_next.1 h
    exact .inl ⟨hp, u, hu, rfl⟩
  · have hp' : pollsHere s = false := Bool.eq_false_of_not_eq_true hp
    simp only [hp', Bool.false_eq_true, if_false] at h
    cases hq : s.seq
    case tBuild p =>
      simp only [hq] at h
      cases hi : primitiveAt s p with
      | none =>
        simp only [hi] at h
        obtain ⟨u, hu, rfl⟩ := mapNext_eq_next.1 h
        refine .inr (.inr ⟨hp', ?_, u, hu, rfl⟩)
        intro p' hp''
        cases hp''
        exact hi
      | some i =>
        simp only [hi] at h
        obtain ⟨u, hu, rfl⟩ := mapNext_eq_next.1 h
        exact .inr (.inl ⟨hp', p, i, u, rfl, hi, hu, rfl⟩)
    all_goals
      simp only [hq] at h
      obtain ⟨u, hu, rfl⟩ := mapNext_eq_next.1 h
      refine .inr (.inr ⟨hp', ?_, u, hu, rfl⟩)
      intro p hq'
      cases hq'

/-- The bridge waits, meets an undefined command, or runs the front command of its stream. -/
theorem bridgeTurn_cases {s t : State} (h : bridgeTurn s = .next t) :
    t = endTurn s ∨ t = endTurn (undefinedCommand s) ∨
      (∃ i rest u, decodeBridge s.bridge.cmdq = .ok (i, rest) ∧ i.level = .bridgeCommand ∧ exec i s = .next u ∧
        t = endTurn (takeCommand rest u)) := by
  unfold bridgeTurn at h
  split at h
  · obtain ⟨u, hu, rfl⟩ := mapNext_eq_next.1 h
    exact .inr (.inr ⟨_, _, u, ‹_›, decodeBridge_level ‹_›, hu, rfl⟩)
  · cases h; exact .inl rfl
  · cases h; exact .inl rfl
  · cases h; exact .inr (.inl rfl)
  · cases h; exact .inr (.inl rfl)

/-- The bridge always has a next state. -/
theorem bridgeTurn_completes (s : State) : ∃ t, bridgeTurn s = .next t := by
  unfold bridgeTurn
  split
  · obtain ⟨u, hu⟩ := exec_bridgeCommand_completes (decodeBridge_level ‹_›) s
    exact ⟨_, by rw [hu]; rfl⟩
  all_goals exact ⟨_, rfl⟩

end Sys2Proof.Machine
end

