-- ==== Sys2Proof/Tests/Slice0.lean ====
section
/-! SUPPORT. Slice0: the author's tests. Encodings written out from 30_encoding.md and 95_test_vectors.md, ill-formed
terms, single steps whose expected results are the rules' own, and, for every obligation with hypotheses, a concrete
state that meets them. -/

namespace Sys2Proof.Tests

open Sys2Proof Sys2Proof.Machine

/-! ## Decoding, from the words of 95_test_vectors.md part 2.1 and the bytes of R101 to R112 -/

theorem test_decode_open : decodeTableWord 32 0x10000050 = some (.openSession 0x50#7) := by decide

theorem test_decode_close : decodeTableWord 32 0x20000000 = some .closeSession := by decide

theorem test_decode_setAddr : decodeTableWord 32 0x3000001D = some (.setAddr 0x1D#7) := by decide

theorem test_decode_rdReg : decodeTableWord 32 0x40023200 = some (.rdReg 0x32#8 0x02#8) := by decide

theorem test_decode_wrReg : decodeTableWord 32 0x500001FF = some (.wrReg 0x01#8 0xFF#8) := by decide

theorem test_decode_gpio : decodeTableWord 24 0x800200 = some (.gpio 0x02#8 0x00#8) := by decide

theorem test_decode_byteOut : decodeTableWord 32 0x110000A0 = some (.byteOut 0xA0#8) := by decide

theorem test_decode_byteIn : decodeTableWord 24 0x200000 = some .byteIn := by decide

theorem test_decode_bitIn : decodeTableWord 16 0x2200 = some .bitIn := by decide

theorem test_decode_bitOut : decodeTableWord 24 0x1300FF = some (.bitOut 0xFF#8) := by decide

theorem test_decode_clkNoDiv5 : decodeTableWord 8 0x8A = some .clkNoDiv5 := by decide

theorem test_decode_clkNoAdapt : decodeTableWord 8 0x97 = some .clkNoAdapt := by decide

theorem test_decode_clkPhase : decodeTableWord 8 0x8C = some .clkPhase := by decide

theorem test_decode_loopOff : decodeTableWord 8 0x85 = some .loopOff := by decide

theorem test_decode_sendNow : decodeTableWord 8 0x87 = some .sendNow := by decide

/-- Low byte of the divider 0x005F first (R109). -/
theorem test_decode_setDiv : decodeTableWord 24 0x865F00 = some (.setDiv 0x5F#8 0x00#8) := by decide

theorem test_decode_sync1 : decodeTableWord 8 0xAA = some .sync1 := by decide

theorem test_decode_sync2 : decodeTableWord 8 0xAB = some .sync2 := by decide

/-- V12 to V14: undefined OPC. -/
theorem test_decode_undefinedOpc :
    decodeHost 0x00000000#32 = .error .undefinedOpc ∧ decodeHost 0x60000000#32 = .error .undefinedOpc ∧
      decodeHost 0xF0000000#32 = .error .undefinedOpc := by decide

/-- V15 to V20: reserved bits and fields that must be 0. -/
theorem test_decode_illegalFields :
    decodeHost 0x10000080#32 = .error .nonzeroField ∧ decodeHost 0x11000050#32 = .error .reservedBits ∧
      decodeHost 0x20000001#32 = .error .nonzeroField ∧ decodeHost 0x40010101#32 = .error .nonzeroField ∧
      decodeHost 0x500101FF#32 = .error .nonzeroField ∧ decodeHost 0x30001D1D#32 = .error .nonzeroField := by decide

/-- Streams that are no command: cut short, another length operand, another opcode. -/
theorem test_decode_noCommand :
    decodeBridge [] = .error .empty ∧ decodeBridge [0x80#8, 0x02#8] = .error .incomplete ∧
      decodeBridge [0x22#8, 0x01#8] = .error .lengthOperand ∧ decodeBridge [0x84#8] = .error .undefinedOpcode := by decide

/-! ## Well-formedness -/

theorem test_wellFormed_emitted :
    Instr.wellFormed (.gpio 0x03#8 0x00#8) = true ∧ Instr.wellFormed (.bitOut 0xFF#8) = true := by decide

theorem test_wellFormed_refuses_directionMask : Instr.wellFormed (.gpio 0x04#8 0x00#8) = false := by decide

theorem test_wellFormed_refuses_valueMask : Instr.wellFormed (.gpio 0x01#8 0x01#8) = false := by decide

theorem test_wellFormed_refuses_ackByte : Instr.wellFormed (.bitOut 0x01#8) = false := by decide

/-! ## One step -/

/-- A check of the next state of an outcome; a fault or a refusal does not pass it. -/
def after (r : StepOutcome) (p : State → Bool) : Bool :=
  match r with
  | .next t => p t
  | .fault _ => false
  | .refused _ => false

/-- A block in the middle of an operation, at its controller's turn. -/
def midway (o : HostOp) (q : Seq) : State := { State.reset with busy := true, op := o, seq := q }

/-- A block whose session is Open at 0x50. -/
def opened (o : HostOp) (q : Seq) : State :=
  { midway o q with sess := .opened, handle := true, addr := 0x50#7 }

/-- The bridge at its turn, with one released and one pulled-down level of SDA decided. -/
def bridgeReady : State := { State.reset with turn := .bridge, inputs := ⟨[], [], [true, false]⟩ }

theorem test_step_accepts_open :
    after (step (State.reset.withFetchWord 32 0x10000050)) (fun t =>
      t.busy == true && t.op == .openOp && t.aAddr == 0x50#7 && t.seq == .oCheck && t.port == none) = true := by decide

theorem test_step_accepts_rdReg :
    after (step (State.reset.withFetchWord 32 0x40023200)) (fun t =>
      t.op == .rdRegOp && t.aReg == 0x32#8 && t.aCnt == 0x02#8 && t.seq == .tCheck) = true := by decide

/-- V17: the result word of an illegal CLOSE. -/
theorem test_step_illegalWord :
    after (step (State.reset.withFetchWord 32 0x20000001)) (fun t =>
      t.resh == [(0x0000002C#32, [])] && t.busy == false && t.txh == []) = true := by decide

/-- T7: OPEN twice; the session stays Open. -/
theorem test_open_twice :
    after (exec (.openSession 0#7) (opened .openOp .oCheck)) (fun t =>
      t.resh == [(0x00000012#32, [])] && t.sess == .opened && t.addr == 0x50#7 && t.ctrlh == []) = true := by decide

/-- R133 step 11 at CLKDIV = 0x005F. -/
theorem test_open_divider_burst :
    after (exec (.openSession 0#7) (midway .openOp .oDiv)) (fun t =>
      t.txh == [[0x80#8, 0x00#8, 0x00#8, 0x86#8, 0x5F#8, 0x00#8]] && t.seq == .oLb) = true := by decide

/-- T8: CLOSE on an Open session sends one Release, then its result; on a Closed one it fails. -/
theorem test_close :
    after (exec .closeSession (opened .closeOp .cRel)) (fun t =>
        t.hist == [.ctrl .release] && t.sess == .opened && t.busy) = true ∧
      after (exec .closeSession (midway .closeOp .cRel)) (fun t => t.hist == [.result 0x00000022#32 []]) = true := by
  decide

theorem test_close_result :
    after (exec .closeSession { opened .closeOp .cDone with handle := false }) (fun t =>
      t.resh == [(0x00000021#32, [])] && t.sess == .closed && t.ctrlh == []) = true := by decide

/-- The example of R139. -/
theorem test_setAddr :
    after (exec (.setAddr 0x1D#7) { opened .setAddrOp .aSet with aAddr := 0x1D#7 }) (fun t =>
      t.addr == 0x1D#7 && t.resh == [(0x00000031#32, [])] && t.sess == .opened) = true := by decide

/-- T5, count 2: the data come back stripped of the three status bytes. -/
theorem test_rdReg_returns_data :
    after (exec (.rdReg 0x32#8 0x02#8)
        { opened .rdRegOp .tValid with
          aReg := 0x32#8, aCnt := 0x02#8, expect := 5, rxbuf := [0x00#8, 0x00#8, 0x00#8, 0x12#8, 0x34#8] })
      (fun t => t.resh == [(0x00000241#32, [0x12#8, 0x34#8])]) = true := by decide

/-- T6: the second status byte has its low bit set. -/
theorem test_wrReg_second_nak :
    after (exec (.wrReg 0x01#8 0xFF#8)
        { opened .wrRegOp .tValid with
          aReg := 0x01#8, aVal := 0xFF#8, expect := 3, rxbuf := [0xFE#8, 0x03#8, 0x80#8] })
      (fun t => t.resh == [(0x00000056#32, [])] && t.nak0 == false && t.nak1 == true && t.nak2 == false) = true := by
  decide

/-- A closed session: nothing is sent and CB is kept. -/
theorem test_wrReg_closed :
    after (exec (.wrReg 0x00#8 0x00#8) { midway .wrRegOp .tCheck with cb := [0x87#8] }) (fun t =>
      t.resh == [(0x00000052#32, [])] && t.cb == [0x87#8] && t.txh == []) = true := by decide

/-- START's second phase begins at byte 18 and its third at byte 36 (R153). -/
theorem test_start_bytes :
    after (exec .start State.reset) (fun t =>
      t.cb.length == 54 && t.cb.take 3 == [0x80#8, 0x00#8, 0x00#8] &&
        (t.cb.drop 18).take 3 == [0x80#8, 0x02#8, 0x00#8] && t.cb.drop 51 == [0x80#8, 0x03#8, 0x00#8]) = true := by
  decide

theorem test_stop_bytes :
    after (exec .stop State.reset) (fun t =>
      t.cb.length == 54 && t.cb.take 3 == [0x80#8, 0x03#8, 0x00#8] && t.cb.drop 51 == [0x80#8, 0x00#8, 0x00#8]) =
      true := by decide

/-- The building block WRBYTE of 95_test_vectors.md. -/
theorem test_wrByte_bytes :
    after (exec (.wrByte 0xA0#8) State.reset) (fun t =>
      t.cb == [0x80#8, 0x03#8, 0x00#8, 0x11#8, 0x00#8, 0x00#8, 0xA0#8, 0x80#8, 0x01#8, 0x00#8, 0x22#8, 0x00#8,
        0x87#8]) = true := by decide

/-- The building block RDBYTE(nak) of 95_test_vectors.md. -/
theorem test_rdByte_bytes :
    after (exec (.rdByte false) State.reset) (fun t =>
      t.cb == [0x80#8, 0x01#8, 0x00#8, 0x20#8, 0x00#8, 0x00#8, 0x80#8, 0x03#8, 0x00#8, 0x13#8, 0x00#8, 0xFF#8,
        0x80#8, 0x01#8, 0x00#8, 0x87#8]) = true := by decide

/-- A queue longer than the expected count does not match (R191). -/
theorem test_poll_counts_a_mismatch :
    after (exec (.poll 1)
        { State.reset with pollAt := .sample, bridge := { bridgeAtPowerUp with rxq := [0x00#8, 0x00#8] } })
      (fun t => t.pollcnt == 1#20 && t.pollAt == .sample) = true := by decide

/-- Bytes that arrive after the count stay queued (R194 (c)). -/
theorem test_poll_retrieves_the_count :
    after (exec (.poll 2)
        { State.reset with
          pollAt := .retrieve 2, bridge := { bridgeAtPowerUp with rxq := [0xFA#8, 0xAA#8, 0x01#8] } })
      (fun t => t.rxbuf == [0xFA#8, 0xAA#8] && t.bridge.rxq == [0x01#8]) = true := by decide

theorem test_gpio_start_condition :
    after (step (State.reset.withFetchWord 24 0x800200)) (fun t =>
      t.bridge.dir == 0x02#8 && t.bridge.val == 0x00#8 && t.bus == [.start] && t.bridge.cmdq == []) = true := by decide

theorem test_gpio_stop_condition :
    after (exec (.gpio 0x00#8 0x00#8) { State.reset with bridge := { bridgeAtPowerUp with dir := 0x02#8 } }) (fun t =>
      t.bus == [.stop]) = true := by decide

theorem test_byteOut :
    after (step (State.reset.withFetchWord 32 0x110000A0)) (fun t =>
      t.bus == [.byteOut 0xA0#8] && t.bridge.resp == []) = true := by decide

/-- SCL is low after a shift command, though the bank drives it high, so no condition follows (R229). -/
theorem test_byteOut_leaves_scl_low :
    after (executeAll [.byteOut 0xA0#8, .gpio 0x03#8 0x03#8]
        { State.reset with bridge := { bridgeAtPowerUp with dir := 0x03#8, val := 0x01#8 } })
      (fun t => t.bus == [.byteOut 0xA0#8]) = true := by decide

/-- First sample in bit 7 (R225). -/
theorem test_byteIn_order :
    after (exec .byteIn
        { State.reset with inputs := ⟨[], [], [true, false, false, false, false, false, true, false]⟩ })
      (fun t => t.bridge.resp == [0x82#8] && t.inputs.levels == []) = true := by decide

theorem test_bitIn_level :
    after (exec .bitIn bridgeReady) (fun t =>
      t.bus == [.bitIn true] && t.inputs.levels == [false] && t.bridge.resp.length == 1) = true := by decide

/-- A one-bit output sends bit 7 of its byte (R107). -/
theorem test_bitOut_bit :
    after (exec (.bitOut 0x80#8) State.reset) (fun t => t.bus == [.bitOut true]) = true ∧
      after (exec (.bitOut 0x7F#8) State.reset) (fun t => t.bus == [.bitOut false]) = true := by decide

theorem test_clkNoDiv5 :
    after (step (State.reset.withFetchWord 8 0x8A)) (fun t => t.bridge.settings.noDiv5) = true := by decide

theorem test_clkNoAdapt :
    after (step (State.reset.withFetchWord 8 0x97)) (fun t => t.bridge.settings.noAdapt) = true := by decide

theorem test_clkPhase :
    after (step (State.reset.withFetchWord 8 0x8C)) (fun t => t.bridge.settings.phase) = true := by decide

theorem test_loopOff :
    after (step (State.reset.withFetchWord 8 0x85)) (fun t => t.bridge.settings.loopOff) = true := by decide

theorem test_sendNow :
    after (exec .sendNow
        { State.reset with bridge := { bridgeAtPowerUp with resp := [0x01#8], rxq := [0x02#8] } })
      (fun t => t.bridge.rxq == [0x02#8, 0x01#8] && t.bridge.resp == []) = true := by decide

theorem test_setDiv :
    after (step (State.reset.withFetchWord 24 0x863412)) (fun t => t.bridge.settings.divider == 0x1234#16) = true := by
  decide

/-- The bridge in its clocked-shift mode. -/
def shifting : State :=
  { State.reset with
    bridge := { bridgeAtPowerUp with settings := { bridgeAtPowerUp.settings with mode := .clockedShift } } }

theorem test_sync1_echo : after (exec .sync1 shifting) (fun t => t.bridge.resp == [0xFA#8, 0xAA#8]) = true := by decide

theorem test_sync2_echo : after (exec .sync2 shifting) (fun t => t.bridge.resp == [0xFA#8, 0xAB#8]) = true := by decide

/-- Another session at a bridge this session holds: stream, queue and pins are corrupted, it is on record as a holder,
this session's hold stays and nothing fails (R255). -/
theorem test_otherSession :
    after (step { State.reset with
        turn := .env, sess := .opened, handle := true, bridge := { bridgeAtPowerUp with held := true, rxq := [0x01#8] }
        inputs :=
          ⟨[.otherSession { bridgeAtPowerUp with others := [7], dir := 0x03#8, cmdq := [0x87#8], rxq := [0x02#8] }], [],
            []⟩ })
      (fun t => t.bridge.dir == 0x03#8 && t.bridge.cmdq == [0x87#8] && t.bridge.rxq == [0x02#8] && t.bridge.held == true &&
        t.bridge.others == [7] && t.sess == .opened && t.hist == []) = true := by
  decide

/-! ## Hypotheses met -/

theorem witness_DecodeEncodeAgree :
    encodeHost (.rdReg 0x32#8 0x02#8) = some 0x40023200#32 ∧
      encodeBridge (.setDiv 0x5F#8 0x00#8) = some [0x86#8, 0x5F#8, 0x00#8] ∧
      Instr.level .bitIn ≠ .primitive := by decide

theorem witness_EncodeDecodeAgree :
    decodeHost 0x1000007F#32 = .ok (.openSession 0x7F#7) ∧
      decodeBridge [0x22#8, 0x00#8, 0x87#8] = .ok (.bitIn, [0x87#8]) := by decide

theorem witness_IllegalWordFailsOnly :
    ∃ (s : State) (w : HostWord) (e : HostReject), s.turn = .controller ∧ s.busy = false ∧ s.port = some w ∧ decodeHost w = .error e :=
  ⟨State.reset.withFetchWord 32 0x60000000, 0x60000000#32, .undefinedOpc, by decide⟩

theorem witness_StepRunsFetchedInstruction :
    (∃ (s : State) (w : HostWord) (i : Instr), s.turn = .controller ∧ s.busy = false ∧ s.port = some w ∧ decodeHost w = .ok i) ∧
      (∃ (s : State) (i : Instr) (rest : List Byte), s.turn = .bridge ∧ decodeBridge s.bridge.cmdq = .ok (i, rest)) ∧
      (∃ (s : State) (p : BuildPos) (i : Instr), s.turn = .controller ∧ s.busy = true ∧ s.seq = .tBuild p ∧ primitiveAt s p = some i) ∧
      (∃ s : State, s.turn = .controller ∧ s.busy = true ∧ pollsHere s = true) ∧
      (∃ s : State, s.turn = .controller ∧ s.busy = true ∧ pollsHere s = false ∧
        (∀ p, s.seq = .tBuild p → primitiveAt s p = none)) :=
  ⟨⟨State.reset.withFetchWord 32 0x20000000, 0x20000000#32, .closeSession, by decide⟩,
    ⟨State.reset.withFetchWord 8 0x87, .sendNow, [], by decide⟩,
    ⟨opened .wrRegOp (.tBuild .wrVal), .wrVal, .wrByte 0x00#8, by decide⟩,
    ⟨midway .openOp .oSync1Poll, by decide⟩,
    ⟨opened .rdRegOp .tTx, by decide, by decide, by decide, fun _ h => by cases h⟩⟩

theorem witness_AcceptanceLoadsLatches :
    State.reset.busy = false ∧ encodeHost (.wrReg 0x01#8 0xFF#8) = some 0x500001FF#32 ∧
      HostOp.opc .wrRegOp = (0x500001FF#32 : HostWord).extractLsb' 28 4 := by decide

theorem witness_BusyPortKeepsWord :
    (Instr.level .closeSession = .hostOperation ∧ (midway .openOp .oClk).busy = true ∧
      inProgress (midway .openOp .oClk) ≠ .closeSession) ∧
      ∃ (s t : State) (w : HostWord), s.busy = true ∧ s.port = some w ∧ step s = .next t :=
  ⟨by decide, ⟨{ midway .openOp .oClk with port := some 0x20000000#32 }, _, 0x20000000#32, rfl, rfl, rfl⟩⟩

theorem witness_OpenWhileOpenChangesNothing :
    (opened .openOp .oCheck).busy = true ∧ inProgress (opened .openOp .oCheck) = .openSession 0#7 ∧
      (opened .openOp .oCheck).seq = .oCheck ∧ (opened .openOp .oCheck).sess = .opened := by decide

theorem witness_OpenAcquiresOrFails :
    ((midway .openOp .oCheck).busy = true ∧ inProgress (midway .openOp .oCheck) = .openSession 0#7 ∧
      (midway .openOp .oCheck).sess = .closed) ∧
      (∃ s : State, s.busy = true ∧ inProgress s = .openSession 0#7 ∧ s.seq = .oAcq ∧ s.inputs.grants = [true]) ∧
      (∃ s : State, s.busy = true ∧ inProgress s = .openSession 0#7 ∧ s.seq = .oAcq ∧ s.inputs.grants = [false]) ∧
      (∃ s : State, s.busy = true ∧ inProgress s = .openSession 0#7 ∧ s.seq = .oAcq ∧ s.inputs.grants = []) ∧
      (∃ s : State, s.busy = true ∧ inProgress s = .openSession 0#7 ∧ s.seq = .oRefused) :=
  ⟨by decide, ⟨{ midway .openOp .oAcq with inputs := ⟨[], [true], []⟩ }, by decide⟩,
    ⟨{ midway .openOp .oAcq with inputs := ⟨[], [false], []⟩ }, by decide⟩, ⟨midway .openOp .oAcq, by decide⟩,
    ⟨midway .openOp .oRefused, by decide⟩⟩

/-- The premise common to the statements about a state of OPEN, at each state they name. -/
theorem witness_OpenStates :
    ∀ q ∈ [Seq.oRst, .oCfgLatency, .oCfgUsb, .oCfgTimeouts, .oModeReset, .oModeShift, .oDrain, .oSync1Tx, .oSync1Cmp,
        .oSync2Tx, .oSync2Cmp, .oAbort, .oFail, .oClk, .oDiv, .oLb, .oDone],
      (midway .openOp q).busy = true ∧ inProgress (midway .openOp q) = .openSession 0#7 ∧
        (midway .openOp q).seq = q := by decide

theorem witness_OpenConfiguresBridgeInOrder :
    ∃ s : State, s.busy = true ∧ inProgress s = .openSession 0#7 ∧ s.seq = .oCfgUsb :=
  ⟨midway .openOp .oCfgUsb, by decide⟩

/-- Both outcomes of a comparison. -/
theorem witness_OpenDrainsAndHandshakes :
    (∃ s : State, s.busy = true ∧ inProgress s = .openSession 0#7 ∧ s.seq = .oSync1Cmp ∧ s.rxbuf = [0xFA#8, 0xAA#8]) ∧
      (∃ s : State, s.busy = true ∧ inProgress s = .openSession 0#7 ∧ s.seq = .oSync2Cmp ∧ s.rxbuf = [0xFA#8]) :=
  ⟨⟨{ midway .openOp .oSync1Cmp with rxbuf := [0xFA#8, 0xAA#8] }, by decide⟩,
    ⟨{ midway .openOp .oSync2Cmp with rxbuf := [0xFA#8] }, by decide⟩⟩

theorem witness_OpenProgramsClockAndDivider :
    ∃ s : State, s.busy = true ∧ inProgress s = .openSession 0#7 ∧ s.seq = .oDiv :=
  ⟨midway .openOp .oDiv, by decide⟩

theorem witness_OpenSuccessWritesAddrAndSess :
    ∃ s : State, s.busy = true ∧ inProgress s = .openSession 0x7F#7 ∧ s.seq = .oDone :=
  ⟨{ midway .openOp .oDone with aAddr := 0x7F#7 }, by decide⟩

/-- A Closed block, a stale byte queued, and the schedule. -/
theorem witness_OpenSucceedsWithPromptBridge :
    ∃ s : State, s.turn = .controller ∧ s.busy = false ∧ s.sess = .closed ∧ s.pollAt = .idle ∧
      encodeHost (.openSession 0x50#7) = s.port ∧ s.inputs.events = openScript ++ [] ∧
      s.inputs.grants = true :: [] ∧ s.bridge.cmdq = [] ∧ s.bridge.resp = [] ∧ s.bridge.rxq = [0x00#8] :=
  ⟨{ State.reset with
      port := some 0x10000050#32, inputs := ⟨openScript, [true], []⟩
      bridge := { bridgeAtPowerUp with rxq := [0x00#8] } }, by decide⟩

theorem witness_CloseReleasesOrFails :
    (∃ s : State, s.busy = true ∧ s.op = .closeOp ∧ s.seq = .cRel ∧ s.sess = .opened) ∧
      (∃ s : State, s.busy = true ∧ s.op = .closeOp ∧ s.seq = .cDone) ∧
      (∃ s : State, s.busy = true ∧ s.op = .closeOp ∧ s.seq = .cRel ∧ s.sess = .closed) :=
  ⟨⟨opened .closeOp .cRel, by decide⟩, ⟨{ opened .closeOp .cDone with handle := false }, by decide⟩,
    ⟨midway .closeOp .cRel, by decide⟩⟩

theorem witness_SetAddrRebindsAddress :
    ∃ s : State, s.busy = true ∧ inProgress s = .setAddr 0x7F#7 ∧ s.seq = .aSet :=
  ⟨{ opened .setAddrOp .aSet with aAddr := 0x7F#7 }, by decide⟩

theorem witness_ClosedTransactionFailsFirst :
    (∃ s : State, s.busy = true ∧ inProgress s = .rdReg 0x00#8 0x00#8 ∧ s.seq = .tCheck ∧ s.sess = .closed) ∧
      (∃ s : State, s.busy = true ∧ inProgress s = .rdReg 0x00#8 0x00#8 ∧ s.seq = .tCheck ∧ s.sess = .opened) ∧
      (∃ s : State, s.busy = true ∧ inProgress s = .wrReg 0x00#8 0x00#8 ∧ s.seq = .tCheck ∧ s.sess = .closed) ∧
      (∃ s : State, s.busy = true ∧ inProgress s = .wrReg 0x00#8 0x00#8 ∧ s.seq = .tCheck ∧ s.sess = .opened) :=
  ⟨⟨midway .rdRegOp .tCheck, by decide⟩, ⟨opened .rdRegOp .tCheck, by decide⟩,
    ⟨midway .wrRegOp .tCheck, by decide⟩, ⟨opened .wrRegOp .tCheck, by decide⟩⟩

theorem witness_TransactionClearsAndSendsBuffer :
    (∃ s : State, s.busy = true ∧ inProgress s = .rdReg 0x00#8 0x00#8 ∧ s.seq = .tBuild .clear) ∧
      (∃ s : State, s.busy = true ∧ inProgress s = .rdReg 0x00#8 0xFF#8 ∧ s.seq = .tTx) ∧
      (∃ s : State, s.busy = true ∧ inProgress s = .wrReg 0x00#8 0x00#8 ∧ s.seq = .tBuild .clear) ∧
      (∃ s : State, s.busy = true ∧ inProgress s = .wrReg 0x00#8 0x00#8 ∧ s.seq = .tTx) :=
  ⟨⟨opened .rdRegOp (.tBuild .clear), by decide⟩, ⟨{ opened .rdRegOp .tTx with aCnt := 0xFF#8 }, by decide⟩,
    ⟨opened .wrRegOp (.tBuild .clear), by decide⟩, ⟨opened .wrRegOp .tTx, by decide⟩⟩

/-- A transaction at its validator, STRICT, expecting three bytes, with `rx` retrieved. -/
def validating (o : HostOp) (rx : List Byte) : State := { opened o .tValid with expect := 3, rxbuf := rx }

/-- One byte short, exactly three with and without a nak. -/
theorem witness_WriteValidatesThreeAcks :
    (∃ s : State, s.busy = true ∧ inProgress s = .wrReg 0x00#8 0x00#8 ∧ s.seq = .tValid ∧ s.cfg.policy = .strict ∧
      s.rxbuf.length ≠ s.expect) ∧
      (∀ b ∈ [0x00#8, 0x01#8], ∃ s : State, s.busy = true ∧ inProgress s = .wrReg 0x00#8 0x00#8 ∧ s.seq = .tValid ∧
        s.rxbuf = 0x00#8 :: 0x00#8 :: b :: [] ∧ ([] : List Byte).length ≤ 255 ∧
        (s.cfg.policy = .strict → s.rxbuf.length = s.expect)) :=
  ⟨⟨validating .wrRegOp [0x00#8, 0x00#8], by decide⟩,
    fun b _ => ⟨validating .wrRegOp [0x00#8, 0x00#8, b], rfl, rfl, rfl, rfl, by decide, fun _ => rfl⟩⟩

/-- One byte too many, exactly three with and without a nak (count 0). -/
theorem witness_ReadValidatesAndStripsAcks :
    (∃ s : State, s.busy = true ∧ inProgress s = .rdReg 0x00#8 0x00#8 ∧ s.seq = .tValid ∧ s.cfg.policy = .strict ∧
      s.rxbuf.length ≠ s.expect) ∧
      (∀ b ∈ [0x00#8, 0x01#8], ∃ s : State, s.busy = true ∧ inProgress s = .rdReg 0x00#8 0x00#8 ∧ s.seq = .tValid ∧
        s.rxbuf = 0x00#8 :: 0x00#8 :: b :: [] ∧ ([] : List Byte).length ≤ 255 ∧
        (s.cfg.policy = .strict → s.rxbuf.length = s.expect)) :=
  ⟨⟨validating .rdRegOp [0x00#8, 0x00#8, 0x00#8, 0x00#8], by decide⟩,
    fun b _ => ⟨validating .rdRegOp [0x00#8, 0x00#8, b], rfl, rfl, rfl, rfl, by decide, fun _ => rfl⟩⟩

/-- The same under LENIENT. -/
def lenient (o : HostOp) (rx : List Byte) : State :=
  { validating o rx with cfg := { Config.defaultBuild with policy := .lenient } }

/-- Two bytes, and 259. -/
theorem witness_LenientUnusableLengthStillEnds :
    (∃ s : State, s.busy = true ∧ s.seq = .tValid ∧ s.cfg.policy = .lenient ∧ s.rxbuf.length < 3 ∧
      inProgress s = .rdReg 0x00#8 0x00#8) ∧
      (∃ s : State, s.busy = true ∧ s.seq = .tValid ∧ s.cfg.policy = .lenient ∧ 258 < s.rxbuf.length ∧
        inProgress s = .wrReg 0x00#8 0x00#8) :=
  ⟨⟨lenient .rdRegOp [0x00#8, 0x00#8], by decide⟩,
    ⟨lenient .wrRegOp (List.replicate 259 0x00#8), rfl, rfl, rfl,
      List.length_replicate.symm ▸ Nat.lt_succ_self 258, rfl⟩⟩

/-- A step under LENIENT that delivers a result, of a retrieval longer than expected. -/
theorem witness_LenientUnusableLengthStillEnds_step :
    ∃ s t : State, s.cfg.policy = .lenient ∧ step s = .next t ∧ t.resh ≠ s.resh :=
  ⟨lenient .wrRegOp [0x00#8, 0x00#8, 0x00#8, 0x00#8], _, rfl, rfl, by decide⟩

/-- In the read loop, at index 0 of a count of 2. -/
theorem witness_BuildHoldsPlannedBurst :
    ∃ s t : State, BuildInv s ∧ step s = .next t ∧ s.seq = .tBuild .rdLoop :=
  ⟨{ opened .rdRegOp (.tBuild .rdLoop) with
      aCnt := 0x02#8
      cb := addressPart .one 0x50#7 0x00#8 ++ startBytes ++ wrByteBytes .one (addrByte 0x50#7 1#1) }, _,
    ⟨by decide, by decide⟩, rfl, rfl⟩

theorem witness_PlannedBurstIsSent :
    (∃ s : State, BuildInv s ∧ s.turn = .controller ∧ s.busy = true ∧ s.seq = .tTx ∧ s.op = .wrRegOp) ∧
      (∃ s : State, BuildInv s ∧ s.turn = .controller ∧ s.busy = true ∧ s.seq = .tTx ∧ s.op = .rdRegOp) :=
  ⟨⟨{ opened .wrRegOp .tTx with cb := wrRegBurst .one 0x50#7 0x00#8 0x00#8 }, ⟨by decide, by decide⟩, rfl, rfl, rfl, rfl⟩,
    ⟨{ opened .rdRegOp .tTx with cb := rdRegBurst .one 0x50#7 0x00#8 0x00#8 }, ⟨by decide, by decide⟩, rfl, rfl, rfl,
      rfl⟩⟩

/-- A transaction about to send, from a block that has sent the first sentinel. -/
theorem witness_BurstsAreDisciplinedStreams :
    ∃ s t : State, DisciplineInv s ∧ step s = .next t ∧ s.txh = [[0xAA#8]] ∧ t.txh ≠ s.txh :=
  ⟨{ opened .wrRegOp .tTx with
      cb := wrRegBurst .one 0x50#7 0x00#8 0x00#8, hist := [.txWrite [0xAA#8]] }, _,
    ⟨⟨by decide, by decide⟩, by decide⟩, rfl, rfl, by decide⟩

theorem witness_BurstsAreDisciplinedStreams_stream : disciplined [0x86#8, 0x5F#8, 0x00#8] = true := by decide

theorem witness_WriteRunsToItsResult :
    ∃ s : State, s.turn = .controller ∧ s.busy = false ∧ s.sess = .opened ∧ s.pollAt = .idle ∧
      encodeHost (.wrReg 0x01#8 0xFF#8) = s.port ∧ s.bridge.rxq = [] ∧
      s.inputs.events = writeScript [0x00#8, 0x01#8, 0x00#8] ++ [] :=
  ⟨{ State.reset with
      sess := .opened, handle := true, addr := 0x50#7, port := some 0x500001FF#32
      inputs := ⟨writeScript [0x00#8, 0x01#8, 0x00#8], [], []⟩ }, by decide⟩

/-- Count 0 and count 2. -/
theorem witness_ReadRunsToItsResult :
    ∀ p ∈ [(0x00#8, ([] : List Byte)), (0x02#8, [0x12#8, 0x34#8])], ∃ s : State,
      s.turn = .controller ∧ s.busy = false ∧ s.sess = .opened ∧ s.pollAt = .idle ∧
        encodeHost (.rdReg 0x32#8 p.1) = s.port ∧ s.bridge.rxq = [] ∧
        s.inputs.events = readScript (p.1 : Byte).toNat (0x00#8 :: 0x00#8 :: 0x00#8 :: p.2) ++ [] :=
  fun p _ =>
    ⟨{ State.reset with
        sess := .opened, handle := true, addr := 0x50#7, port := encodeHost (.rdReg 0x32#8 p.1)
        inputs := ⟨readScript (p.1 : Byte).toNat (0x00#8 :: 0x00#8 :: 0x00#8 :: p.2) ++ [], [], []⟩ },
      rfl, rfl, rfl, rfl, rfl, rfl, rfl⟩

theorem witness_ReadRunsToItsResult_lengths :
    ([] : List Byte).length = (0x00#8 : Byte).toNat ∧ [0x12#8, 0x34#8].length = (0x02#8 : Byte).toNat := by decide

theorem witness_StartThenStopIsThirtySixTriples : State.reset.cb = [] := rfl

/-- A poll for two bytes with `n` queued, at position `p`, after `k` samples. -/
def polling (p : PollPos) (k n : Nat) : State :=
  { midway .openOp .oSync1Poll with
    pollAt := p, pollcnt := BitVec.ofNat 20 k, expect := 2
    bridge := { bridgeAtPowerUp with rxq := List.replicate n 0x00#8 } }

/-- Every clause, the sampling ones at the last sample before the bound and at the bound. -/
theorem witness_PollSamplesThenRetrieves :
    (polling .idle 0 0).pollAt = .idle ∧
      ((polling .sample 999999 2).pollcnt.toNat < 1000000 ∧ (polling .sample 999999 2).bridge.rxq.length = 2) ∧
      ((polling .sample 999999 3).pollcnt.toNat < 1000000 ∧ (polling .sample 999999 3).bridge.rxq.length ≠ 2) ∧
      1000000 ≤ (polling .sample 1000000 0).pollcnt.toNat ∧
      (polling .count 0 0).pollAt = .count ∧ (polling (.retrieve 2) 0 2).pollAt = .retrieve 2 := by decide

/-- A queue of three, two expected: the controller below the bound, at the bound, and another agent's turn. -/
theorem witness_PollNeverMatchesAboveItsCount :
    (∀ k ∈ [999999, 1000000], ∃ t, Undisturbed (polling .sample k 3) ∧ step (polling .sample k 3) = .next t ∧ (polling .sample k 3).busy = true ∧
      pollsHere (polling .sample k 3) = true ∧ (polling .sample k 3).pollAt = .sample ∧
      (polling .sample k 3).expect < (polling .sample k 3).bridge.rxq.length ∧
      (polling .sample k 3).turn = .controller) ∧
      ∃ s t : State, Undisturbed s ∧ step s = .next t ∧ s.busy = true ∧ pollsHere s = true ∧ s.pollAt = .sample ∧
        s.expect < s.bridge.rxq.length ∧ s.turn = .bridge :=
  ⟨fun _ _ => ⟨_, nofun, rfl, rfl, rfl, rfl, Nat.lt_succ_self 2, rfl⟩,
    ⟨{ polling .sample 0 3 with turn := .bridge }, _, nofun, rfl, rfl, rfl, rfl, Nat.lt_succ_self 2, rfl⟩⟩

theorem witness_PollNeverMatchesAboveItsCount_bounds :
    (polling .sample 999999 3).pollcnt.toNat < 1000000 ∧ 1000000 ≤ (polling .sample 1000000 3).pollcnt.toNat := by
  decide

/-- At a retrieval of all that is queued. -/
theorem witness_PollInvariantKept :
    ∃ s t : State, Undisturbed s ∧ PollInv s ∧ step s = .next t ∧ s.pollAt = .retrieve 2 :=
  ⟨polling (.retrieve 2) 1000000 2, _, nofun, ⟨fun _ => by decide, by decide, Nat.le_refl 2⟩, rfl, rfl⟩

theorem witness_GpioSetsPinsAndConditions :
    isShift .byteIn = true ∧ ∃ t, exec .byteIn State.reset = .next t := ⟨rfl, _, rfl⟩

theorem witness_BitInQueuesSampledLevel :
    (bridgeReady.bridge.dir.getLsbD 1 = false ∧ bridgeReady.inputs.levels = true :: [false]) ∧
      ∃ s : State, s.bridge.dir.getLsbD 1 = true :=
  ⟨by decide, ⟨{ bridgeReady with bridge := { bridgeAtPowerUp with dir := 0x03#8 } }, by decide⟩⟩

theorem witness_ByteInQueuesEightSamples :
    ∃ s : State, s.bridge.dir.getLsbD 1 = false ∧ s.inputs.levels = levelsOf 0x81#8 ++ [true] :=
  ⟨{ State.reset with inputs := ⟨[], [], levelsOf 0x81#8 ++ [true]⟩ }, by decide⟩

theorem witness_SentinelsEcho :
    shifting.bridge.settings.mode = .clockedShift ∧ State.reset.bridge.settings.mode = .neutral := by decide

theorem witness_ResponsesPerCommand :
    Instr.level .sync1 = .bridgeCommand ∧ shifting.bridge.settings.mode = .clockedShift ∧
      ∃ t, exec .sync1 shifting = .next t :=
  ⟨rfl, rfl, _, rfl⟩

theorem witness_WriteBurstPutsFrameOnBus :
    ∃ s : State, s.bridge.dir = 0x00#8 ∧ s.bridge.val = 0x00#8 ∧ s.inputs.levels = false :: true :: false :: [] :=
  ⟨{ State.reset with inputs := ⟨[], [], [false, true, false]⟩ }, by decide⟩

theorem witness_ReadBurstPutsFrameOnBus :
    ∃ s : State, s.bridge.dir = 0x00#8 ∧ s.bridge.val = 0x00#8 ∧ [0x12#8, 0x34#8].length = (0x02#8 : Byte).toNat ∧
      s.inputs.levels = false :: false :: false :: (levelsOfAll [0x12#8, 0x34#8] ++ []) :=
  ⟨{ State.reset with
      inputs := ⟨[], [], false :: false :: false :: levelsOfAll [0x12#8, 0x34#8]⟩ }, by decide⟩

theorem witness_NoStepStops : SequencerInv (midway .openOp .oAcq) ∧ SequencerInv State.reset := by decide

/-- Inside an OPEN that holds the bridge, idle with the session Open, and another session at a held bridge. -/
theorem witness_HandleFollowsSession :
    (∃ s t : State, BlockInv s ∧ step s = .next t ∧ s.seq = .oDone) ∧
      (∃ s : State, BlockInv s ∧ s.busy = false ∧ s.sess = .opened) ∧
      (∃ s : State, s.turn = .env ∧ s.bridge.held = true ∧ nextEvent s = .otherSession bridgeAtPowerUp) :=
  ⟨⟨{ midway .openOp .oDone with handle := true }, _, by decide, rfl, rfl⟩,
    ⟨{ State.reset with sess := .opened, handle := true }, by decide⟩,
    ⟨{ State.reset with
        bridge := { bridgeAtPowerUp with held := true }
        turn := .env, inputs := ⟨[.otherSession bridgeAtPowerUp], [], []⟩ }, rfl, rfl, rfl⟩⟩

/-- A session Open at a bridge it holds, before the environment's event `e`. -/
def heldBefore (e : EnvEvent) : State :=
  { State.reset with
    sess := .opened, handle := true, bridge := { bridgeAtPowerUp with held := true, rxq := [0x01#8] }
    turn := .env, inputs := ⟨[e], [false], []⟩ }

/-- The environment's duty kept: at a granted `Acquire`, at another session's own acquisition of a free bridge, and at
the arrival of bytes at a held one. -/
theorem witness_HandleFollowsSession_exclusive :
    (∃ s t : State, ExclusiveHold s ∧ OneHolderInv s ∧ acquireReply s = true ∧ step s = .next t ∧ t.bridge.held = true) ∧
      (∃ s t : State, ExclusiveHold s ∧ OneHolderInv s ∧ ¬ (s.turn = .env ∧ nextEvent s = .reset ∧ s.busy = true) ∧
        step s = .next t ∧ t.bridge.others = [7]) ∧
      (∃ s t : State, ExclusiveHold s ∧ HoldInv s ∧ s.handle = true ∧ s.turn = .env ∧
        ¬ (nextEvent s = .reset ∧ s.busy = true) ∧ step s = .next t ∧ t.bridge.rxq = [0x01#8, 0x02#8]) :=
  ⟨⟨{ midway .openOp .oAcq with inputs := ⟨[], [true], []⟩ }, _, ⟨fun _ => rfl, nofun⟩, by decide, rfl, rfl, rfl⟩,
    ⟨{ State.reset with
        turn := .env, inputs := ⟨[.otherSession { bridgeAtPowerUp with others := [7] }], [false], []⟩ }, _,
      ⟨nofun, fun _ b hb => by cases hb; decide⟩, by decide, nofun, rfl, rfl⟩,
    ⟨heldBefore (.arrive [0x02#8]), _, ⟨nofun, nofun⟩, by decide, rfl, rfl, nofun, rfl, rfl⟩⟩

theorem witness_ExpectedCountKept :
    ∃ s t : State, ExpectInv s ∧ step s = .next t ∧ s.seq = .tPoll :=
  ⟨{ opened .wrRegOp .tPoll with expect := 3 }, _, by decide, rfl, rfl⟩

/-- Each register written by the step that may write it. -/
theorem witness_RegistersHaveTheirWriters :
    (∃ s t : State, SequencerInv s ∧ step s = .next t ∧ ¬ (s.turn = .env ∧ nextEvent s = .reset) ∧ s.sess = .closed ∧
      t.sess = .opened ∧ t.addr ≠ s.addr) ∧
      (∃ s t : State, SequencerInv s ∧ step s = .next t ∧ ¬ (s.turn = .env ∧ nextEvent s = .reset) ∧ s.sess = .opened ∧
        t.sess = .closed) ∧
      (∃ s t : State, SequencerInv s ∧ step s = .next t ∧ ¬ (s.turn = .env ∧ nextEvent s = .reset) ∧ t.cb ≠ s.cb) ∧
      (∃ s t : State, SequencerInv s ∧ step s = .next t ∧ ¬ (s.turn = .env ∧ nextEvent s = .reset) ∧ t.rxbuf ≠ s.rxbuf) :=
  ⟨⟨{ midway .openOp .oDone with aAddr := 0x50#7 }, _, by decide, rfl, nofun, rfl, rfl, by decide⟩,
    ⟨{ opened .closeOp .cDone with handle := false }, _, by decide, rfl, nofun, rfl, rfl⟩,
    ⟨opened .wrRegOp (.tBuild .start), _, by decide, rfl, nofun, by decide⟩,
    ⟨polling (.retrieve 2) 0 2, _, by decide, rfl, nofun, by decide⟩⟩

/-- The latches at an acceptance, and NAK at a validation. -/
theorem witness_RegistersHaveTheirWriters_latches :
    (∃ s t : State, SequencerInv s ∧ step s = .next t ∧ ¬ (s.turn = .env ∧ nextEvent s = .reset) ∧
      t.op ≠ s.op ∧ t.aReg ≠ s.aReg) ∧
      (∃ s t : State, SequencerInv s ∧ step s = .next t ∧ ¬ (s.turn = .env ∧ nextEvent s = .reset) ∧
        t.nak1 ≠ s.nak1) :=
  ⟨⟨State.reset.withFetchWord 32 0x500001FF, _, by decide, rfl, nofun, by decide, by decide⟩,
    ⟨validating .wrRegOp [0x00#8, 0x01#8, 0x00#8], _, by decide, rfl, nofun, by decide⟩⟩

/-- A step that adds each kind of event. -/
theorem witness_HistoriesOnlyGrow :
    (∃ t, step (midway .openOp .oClk) = .next t ∧ t.hist = [] ++ [.txWrite [0x8A#8, 0x97#8, 0x8C#8]]) ∧
      (∃ t, step (midway .openOp .oRst) = .next t ∧ t.hist = [] ++ [.ctrl .reset]) ∧
      (∃ t, step (polling .count 0 2) = .next t ∧ t.hist = [] ++ [.rxCount 2]) ∧
      (∃ t, step (polling (.retrieve 1) 0 2) = .next t ∧ t.hist = [] ++ [.rxRead [0x00#8]]) ∧
      (∃ t, step (midway .setAddrOp .aSet) = .next t ∧ t.hist = [] ++ [.result 0x00000031#32 []]) :=
  ⟨⟨_, rfl, rfl⟩, ⟨_, rfl, rfl⟩, ⟨_, rfl, rfl⟩, ⟨_, rfl, rfl⟩, ⟨_, rfl, by decide⟩⟩

/-- A position that sends, one that sends a control event, the send of a transaction, and the wait after it. -/
theorem witness_HistoriesOnlyGrow_positions :
    (burstAt (midway .openOp .oLb) = some [0x85#8] ∧ ctrlAt (opened .closeOp .cRel) = some .release) ∧
      (∃ t, step (opened .wrRegOp .tTx) = .next t ∧ sent (opened .wrRegOp .tTx).seq = false ∧
        sent t.seq = true) ∧
      (∃ t, step (opened .wrRegOp .tPoll) = .next t ∧ (opened .wrRegOp .tPoll).busy = true ∧
        sent (opened .wrRegOp .tPoll).seq = true ∧ t.busy = true) :=
  ⟨by decide, ⟨_, rfl, rfl, rfl⟩, ⟨_, rfl, rfl, rfl, rfl⟩⟩

theorem witness_OnlyRetrievalShortensQueue :
    ∃ s t : State, Undisturbed s ∧ step s = .next t ∧ ¬ (s.turn = .env ∧ nextEvent s = .reset ∧ s.busy = true) ∧
      ¬ (s.turn = .controller ∧ s.busy = true ∧ pollsHere s = true ∧ ∃ m, s.pollAt = .retrieve m) ∧
      s.bridge.rxq ≠ [] :=
  ⟨polling .count 0 2, _, nofun, rfl, nofun, nofun, by decide⟩

theorem witness_OneResultEndsOperation :
    ∃ s t : State, step s = .next t ∧ s.busy = true ∧ t.busy = false ∧ t.resh ≠ s.resh :=
  ⟨opened .setAddrOp .aSet, _, rfl, rfl, rfl, by decide⟩

theorem witness_DividerStaysHardwired :
    ∃ t, step State.reset = .next t ∧ State.reset.div = State.reset.cfg.clkdiv := ⟨_, rfl, rfl⟩

theorem witness_ResultLengthMatchesData :
    ∃ s t : State, s.resData.length = s.resLen.toNat ∧ step s = .next t ∧ t.resValid = true :=
  ⟨opened .setAddrOp .aSet, _, by decide, rfl, rfl⟩

/-- Reset of an idle block and of a busy one. -/
theorem witness_ResetIsSilent :
    (∃ s : State, s.turn = .env ∧ nextEvent s = .reset ∧ s.busy = false) ∧
      (∃ s : State, s.turn = .env ∧ nextEvent s = .reset ∧ s.busy = true) :=
  ⟨⟨{ State.reset with turn := .env, inputs := ⟨[.reset], [], []⟩ }, by decide⟩,
    ⟨{ opened .rdRegOp .tPoll with turn := .env, inputs := ⟨[.reset], [], []⟩ }, by decide⟩⟩

end Sys2Proof.Tests
end

section
/-! The action of the SEQ state of the operation in progress: what `exec` of a busy block runs, and the statements about
single states of OPEN, CLOSE and the poller. -/

namespace Sys2Proof.Machine

/-! ## The operation in progress -/

/-- The action of the SEQ state of the operation in progress (R28). -/
def advance (s : State) : StepOutcome :=
  match s.op with
  | .openOp => advanceOpen s.aAddr s
  | .closeOp => advanceClose s
  | .setAddrOp => advanceSetAddr s.aAddr s
  | .rdRegOp => advanceRdReg s.aCnt s
  | .wrRegOp => advanceWrReg s

theorem exec_inProgress {s : State} (hb : s.busy = true) : exec (inProgress s) s = advance s := by
  cases ho : s.op <;> simp only [inProgress, advance, ho] <;>
    exact hostOperation_of_inProgress hb (by simp [inProgress, ho])

theorem inProgress_eq_openSession {s : State} {a : BitVec 7} :
    inProgress s = .openSession a ↔ s.op = .openOp ∧ s.aAddr = a := by
  cases ho : s.op <;> simp [inProgress, ho]

theorem exec_openSession_inProgress {a : BitVec 7} {s : State} (hb : s.busy = true)
    (hi : inProgress s = .openSession a) : exec (.openSession a) s = advanceOpen a s :=
  hostOperation_of_inProgress hb hi

theorem exec_closeSession_inProgress {s : State} (hb : s.busy = true) (ho : s.op = .closeOp) :
    exec .closeSession s = advanceClose s :=
  hostOperation_of_inProgress hb (by simp [inProgress, ho])

theorem fail_of_op {c : Cause} {o : HostOp} {s : State} (h : s.op = o) : fail c s = report false c o.opc [] s := by
  rw [fail, h]

theorem succeed_of_op {d : List Byte} {o : HostOp} {s : State} (h : s.op = o) :
    succeed d s = report true .none o.opc d s := by
  rw [succeed, h]

theorem closeRelease_opened {s : State} (h : s.sess = .opened) :
    closeRelease s = moveTo .cDone (releaseBridge s) := by
  simp [closeRelease, h]

theorem closeRelease_closed {s : State} (h : s.sess = .closed) : closeRelease s = fail .sessionState s := by
  simp [closeRelease, h]

/-! ## The reply to `Acquire` -/

section
variable {s : State} {g : Bool} {gs : List Bool}

theorem acquireReply_decided (h : s.inputs.grants = g :: gs) : acquireReply s = g := by
  simp [acquireReply, h]

theorem acquireReply_drawn (h : s.inputs.grants = []) : acquireReply s = Config.acquireGranted s.draws := by
  simp [acquireReply, h]

theorem takeGrant_decided (h : s.inputs.grants = g :: gs) :
    takeGrant s = { s with inputs := { s.inputs with grants := gs } } := by
  simp [takeGrant, h]

theorem takeGrant_drawn (h : s.inputs.grants = []) : takeGrant s = { s with draws := s.draws + 1 } := by
  simp [takeGrant, h]

end

/-! ## OPEN and CLOSE, state by state -/

/-- Settles O13: the check passes in a Closed session, and `Acquire` is granted or refused by a reply that is decided
or drawn. -/
theorem openAcquiresOrFails : Obligations.OpenAcquiresOrFails := by
  refine ⟨?check, ?decided, ?drawn, ?refused⟩
  case check =>
    intro a s hb hi hq hc
    rw [exec_openSession_inProgress hb hi]
    simp [advanceOpen, hq, openCheck, hc, moveTo]
  case decided =>
    intro a s g gs hb hi hq hg
    have hg' : (ctrl (.acquire Config.deviceId) s).inputs.grants = g :: gs := hg
    rw [exec_openSession_inProgress hb hi]
    simp only [advanceOpen, hq, openAcquire, acquireReply_decided hg, takeGrant_decided hg']
    cases g <;> rfl
  case drawn =>
    intro a s hb hi hq hg
    have hg' : (ctrl (.acquire Config.deviceId) s).inputs.grants = [] := hg
    rw [exec_openSession_inProgress hb hi]
    simp only [advanceOpen, hq, openAcquire, acquireReply_drawn hg, takeGrant_drawn hg']
    cases Config.acquireGranted s.draws <;> rfl
  case refused =>
    intro a s hb hi hq
    obtain ⟨ho, -⟩ := inProgress_eq_openSession.1 hi
    rw [exec_openSession_inProgress hb hi]
    simp only [advanceOpen, hq, openRefused]
    rw [fail_of_op ho]
    rfl

/-- A comparison of OPEN moves SEQ and nothing else. -/
theorem openCompare_eq (echo : List Byte) (q : Seq) (s : State) :
    openCompare echo q s = { s with seq := if s.rxbuf = echo then q else .oAbort } := by
  unfold openCompare
  split <;> rfl

/-- Settles O15: each of the seven states runs its action once. -/
theorem openDrainsAndHandshakes : Obligations.OpenDrainsAndHandshakes := by
  intro a s hb hi
  obtain ⟨ho, -⟩ := inProgress_eq_openSession.1 hi
  rw [exec_openSession_inProgress hb hi]
  refine ⟨?drain, ?send1, ?compare1, ?send2, ?compare2, ?abort, ?failed⟩ <;> intro hq <;> simp only [advanceOpen, hq]
  case drain => rfl
  case send1 => rfl
  case compare1 => rw [openCompare_eq]; rfl
  case send2 => rfl
  case compare2 => rw [openCompare_eq]; rfl
  case abort => rfl
  case failed => rw [openFail, fail_of_op ho]; rfl

/-- Settles O19: CLOSE releases an Open session and ends in the state after; a Closed one fails at once. -/
theorem closeReleasesOrFails : Obligations.CloseReleasesOrFails := by
  intro s hb ho
  rw [exec_closeSession_inProgress hb ho]
  refine ⟨?release, ?done, ?closed⟩
  case release =>
    intro hq hs
    simp only [advanceClose, hq]
    rw [closeRelease_opened hs]
    rfl
  case done =>
    intro hq
    simp only [advanceClose, hq]
    rw [closeDone, succeed_of_op (s := { s with sess := .closed }) ho]
    rfl
  case closed =>
    intro hq hs
    simp only [advanceClose, hq]
    rw [closeRelease_closed hs, fail_of_op ho]
    rfl

/-! ## The poller -/

section
variable {n : Nat} {s : State}

theorem execPoll_idle (h : s.pollAt = .idle) : execPoll n s = .next (pollStart n s) := by simp [execPoll, h]

theorem execPoll_sample (h : s.pollAt = .sample) : execPoll n s = .next (pollSample n s) := by simp [execPoll, h]

theorem execPoll_count (h : s.pollAt = .count) : execPoll n s = .next (pollCount s) := by simp [execPoll, h]

theorem execPoll_retrieve {m : Nat} (h : s.pollAt = .retrieve m) : execPoll n s = .next (pollRetrieve m s) := by
  simp [execPoll, h]

theorem pollSample_match (hc : s.pollcnt.toNat < 1000000) (hn : s.bridge.rxq.length = n) :
    pollSample n s = { sampleCount s with pollAt := .count } := by
  simp [pollSample, Config.pollMax, rxCount, hc, hn]

theorem pollSample_miss (hc : s.pollcnt.toNat < 1000000) (hn : s.bridge.rxq.length ≠ n) :
    pollSample n s = { sampleCount s with pollcnt := s.pollcnt + 1#20 } := by
  simp [pollSample, Config.pollMax, rxCount, hc, hn]

theorem pollSample_exhausted (hc : 1000000 ≤ s.pollcnt.toNat) : pollSample n s = { s with pollAt := .count } := by
  simp [pollSample, Config.pollMax, Nat.not_lt.2 hc]

end

/-- Settles O36: the step at each of the four positions of a poll, the sampling one in its three cases. -/
theorem pollSamplesThenRetrieves : Obligations.PollSamplesThenRetrieves := by
  intro n s
  refine ⟨?start, ?hit, ?miss, ?exhausted, ?count, ?retrieve⟩
  case start => exact execPoll_idle
  case hit =>
    intro hp hc hn
    rw [exec, execPoll_sample hp, pollSample_match hc hn, ← hn]
    rfl
  case miss =>
    intro hp hc hn
    rw [exec, execPoll_sample hp, pollSample_miss hc hn]
    rfl
  case exhausted =>
    intro hp hc
    rw [exec, execPoll_sample hp, pollSample_exhausted hc]
  case count => exact execPoll_count
  case retrieve => exact fun m => execPoll_retrieve

end Sys2Proof.Machine
end

section
/-! The event each step adds to the history, predicted from the state before it, and the statement that histories only
grow. -/

namespace Sys2Proof.Machine

/-! ## The event of a step -/

/-- What the controller reads of the response queue at its position: a sample or the retrieval of a poll (R190), or the
sample of the drain (R133 step 4). -/
def queueEventAt (s : State) : Option Event :=
  if pollsHere s then
    match s.pollAt with
    | .idle => none
    | .sample => if s.pollcnt.toNat < Config.pollMax then some (.rxCount (rxCount s)) else none
    | .count => some (.rxCount (rxCount s))
    | .retrieve m => some (.rxRead (s.bridge.rxq.take m))
  else if s.op = .openOp ∧ s.seq = .oDrain then some (.rxCount (rxCount s))
  else none

/-- The event of a busy controller's position, results apart. -/
def positionEvent (s : State) : Option Event :=
  ((burstAt s).map Event.txWrite).or (((ctrlAt s).map Event.ctrl).or (queueEventAt s))

/-- The event the next step adds to the history, results apart. -/
def eventAt (s : State) : Option Event :=
  if s.turn = .controller ∧ s.busy = true then positionEvent s else none

/-- `t` has ended the operation of `s` with one result, the one its result registers hold. -/
def DeliversResult (s t : State) : Prop := t.busy = false ∧ t.hist = s.hist ++ [.result t.rsp t.resData]

/-- What a step from `s` to `t` records, `e` being the event of its position: that event, or, where there is none, possibly
a result. -/
def Records (e : Option Event) (s t : State) : Prop :=
  t.hist = s.hist ++ e.toList ∨ e = none ∧ DeliversResult s t

theorem records_of_hist_eq {s t : State} (h : t.hist = s.hist) : Records none s t := .inl (by simpa using h)

theorem fail_deliversResult (c : Cause) (s : State) : DeliversResult s (fail c s) := ⟨rfl, rfl⟩

theorem succeed_deliversResult (d : List Byte) (s : State) : DeliversResult s (succeed d s) := ⟨rfl, rfl⟩

/-- The validator always ends the operation with a result. -/
theorem validate_deliversResult (isRead : Bool) (s : State) : DeliversResult s (validate isRead s) := by
  obtain ⟨-, h⟩ | ⟨-, h⟩ | ⟨-, -, h⟩ | ⟨-, -, h⟩ := validate_cases isRead s
  · rw [h]; exact fail_deliversResult _ s
  · obtain ⟨d, -, -, h'⟩ | ⟨c, -, h'⟩ := lenientResult_cases isRead s
    · rw [h, h']; exact succeed_deliversResult d s
    · rw [h, h']; exact fail_deliversResult c s
  · rw [h]; exact fail_deliversResult _ (recordNak s)
  · rw [h]; exact succeed_deliversResult _ (recordNak s)

theorem validate_seq (isRead : Bool) (s : State) : (validate isRead s).seq = .idle := by
  obtain ⟨-, h⟩ | ⟨-, h⟩ | ⟨-, -, h⟩ | ⟨-, -, h⟩ := validate_cases isRead s
  · rw [h]; rfl
  · obtain ⟨d, -, -, h'⟩ | ⟨c, -, h'⟩ := lenientResult_cases isRead s <;> rw [h, h'] <;> rfl
  · rw [h]; rfl
  · rw [h]; rfl

/-! ## What the action of a position does to the history and to the wait for a response -/

/-- What the controller's action at a position of the operation in progress does, seen from the history: it records the
position's event; it goes over to the wait for the response only by sending the whole of CB; and from there it goes on
waiting until it ends the operation. -/
structure Acts (s t : State) : Prop where
  records : Records (positionEvent s) s t
  sends : sent s.seq = false → sent t.seq = true → burstAt s = some s.cb
  waits : sent s.seq = true → t.busy = true → sent t.seq = true

/-- A position that records no event, sends nothing and does not wait. -/
theorem acts_of_silent {s t : State} (he : positionEvent s = none) (hr : Records none s t) (hs : sent s.seq = false)
    (ht : sent t.seq = false) : Acts s t :=
  ⟨he ▸ hr, fun _ h => by simp [ht] at h, fun h => by simp [hs] at h⟩

/-- A position that records its event and is no part of a transaction's wait. -/
theorem acts_of_event {s t : State} {e : Event} (he : positionEvent s = some e) (hh : t.hist = s.hist ++ [e])
    (hs : sent s.seq = false) (ht : sent t.seq = false) : Acts s t :=
  ⟨.inl (by simpa [he] using hh), fun _ h => by simp [ht] at h, fun h => by simp [hs] at h⟩

section
variable {s t : State}

theorem openCheck_acts (ho : s.op = .openOp) (hq : s.seq = .oCheck) : Acts s (openCheck s) := by
  have he : positionEvent s = none := by
    simp [positionEvent, burstAt, ctrlAt, queueEventAt, pollsHere, ho, hq]
  unfold openCheck
  split
  · exact acts_of_silent he (.inr ⟨rfl, fail_deliversResult _ s⟩) (by simp [hq, sent]) rfl
  · exact acts_of_silent he (records_of_hist_eq rfl) (by simp [hq, sent]) rfl

@[simp] theorem takeGrant_hist (s : State) : (takeGrant s).hist = s.hist := by
  obtain ⟨i, d, h⟩ := takeGrant_eq s
  rw [h]

theorem openAcquire_acts (ho : s.op = .openOp) (hq : s.seq = .oAcq) : Acts s (openAcquire s) := by
  have he : positionEvent s = some (.ctrl (.acquire Config.deviceId)) := by
    simp [positionEvent, burstAt, ctrlAt, ho, hq]
  unfold openAcquire
  split <;> exact acts_of_event he (by simp) (by simp [hq, sent]) rfl

theorem openCompare_acts {echo : List Byte} {q : Seq} (he : positionEvent s = none) (hs : sent s.seq = false)
    (hq : sent q = false) : Acts s (openCompare echo q s) := by
  unfold openCompare
  split
  · exact acts_of_silent he (records_of_hist_eq rfl) hs hq
  · exact acts_of_silent he (records_of_hist_eq rfl) hs rfl

theorem closeRelease_acts (ho : s.op = .closeOp) (hq : s.seq = .cRel) : Acts s (closeRelease s) := by
  unfold closeRelease
  split <;> rename_i hs
  · exact acts_of_event (e := .ctrl .release) (by simp [positionEvent, burstAt, ctrlAt, ho, hq, hs]) rfl
      (by simp [hq, sent]) rfl
  · exact acts_of_silent (by simp [positionEvent, burstAt, ctrlAt, queueEventAt, pollsHere, ho, hq, hs])
      (.inr ⟨rfl, fail_deliversResult _ s⟩) (by simp [hq, sent]) rfl

theorem sessionCheck_acts (ho : s.op = .rdRegOp ∨ s.op = .wrRegOp) (hq : s.seq = .tCheck) : Acts s (sessionCheck s) := by
  have he : positionEvent s = none := by
    obtain ho | ho := ho <;> simp [positionEvent, burstAt, ctrlAt, queueEventAt, pollsHere, ho, hq]
  unfold sessionCheck
  split
  · exact acts_of_silent he (.inr ⟨rfl, fail_deliversResult _ s⟩) (by simp [hq, sent]) rfl
  · exact acts_of_silent he (records_of_hist_eq rfl) (by simp [hq, sent]) rfl

theorem buildClear_acts (ho : s.op = .rdRegOp ∨ s.op = .wrRegOp) (hq : s.seq = .tBuild .clear) :
    Acts s (buildClear s) := by
  have he : positionEvent s = none := by
    obtain ho | ho := ho <;> simp [positionEvent, burstAt, ctrlAt, queueEventAt, pollsHere, ho, hq]
  exact acts_of_silent he (records_of_hist_eq rfl) (by simp [hq, sent]) rfl

theorem sendBuffer_acts (n : Nat) (ho : s.op = .rdRegOp ∨ s.op = .wrRegOp) (hq : s.seq = .tTx) :
    Acts s (sendBuffer n s) := by
  have hb : burstAt s = some s.cb := by obtain ho | ho := ho <;> simp [burstAt, ho, hq]
  exact ⟨.inl (by simp [positionEvent, hb, sendBuffer]), fun _ _ => hb, fun h => by simp [hq, sent] at h⟩

theorem validate_acts (isRead : Bool) (ho : s.op = .rdRegOp ∨ s.op = .wrRegOp) (hq : s.seq = .tValid) :
    Acts s (validate isRead s) := by
  have hr := validate_deliversResult isRead s
  have he : positionEvent s = none := by
    obtain ho | ho := ho <;> simp [positionEvent, burstAt, ctrlAt, queueEventAt, pollsHere, ho, hq]
  exact ⟨.inr ⟨he, hr⟩, fun h => by simp [hq, sent] at h, fun _ h => by simp [hr.1] at h⟩

/-- OPEN: the checks, the comparisons and the results are the positions without an event; every other one sends its
event or takes the drain's sample. -/
theorem advanceOpen_acts {a : BitVec 7} (ho : s.op = .openOp) (h : advanceOpen a s = .next t) : Acts s t := by
  cases hq : s.seq <;> simp only [advanceOpen, hq, reduceCtorEq, Host.Outcome.next.injEq] at h <;> subst h
  case oCheck => exact openCheck_acts ho hq
  case oAcq => exact openAcquire_acts ho hq
  case oRefused =>
    exact acts_of_silent (by simp [positionEvent, burstAt, ctrlAt, queueEventAt, pollsHere, ho, hq])
      (.inr ⟨rfl, fail_deliversResult _ s⟩) (by simp [hq, sent]) rfl
  case oSync1Cmp =>
    exact openCompare_acts (by simp [positionEvent, burstAt, ctrlAt, queueEventAt, pollsHere, ho, hq])
      (by simp [hq, sent]) rfl
  case oSync2Cmp =>
    exact openCompare_acts (by simp [positionEvent, burstAt, ctrlAt, queueEventAt, pollsHere, ho, hq])
      (by simp [hq, sent]) rfl
  case oFail =>
    exact acts_of_silent (by simp [positionEvent, burstAt, ctrlAt, queueEventAt, pollsHere, ho, hq])
      (.inr ⟨rfl, fail_deliversResult _ s⟩) (by simp [hq, sent]) rfl
  case oDone =>
    exact acts_of_silent (by simp [positionEvent, burstAt, ctrlAt, queueEventAt, pollsHere, ho, hq])
      (.inr ⟨rfl, succeed_deliversResult [] s⟩) (by simp [hq, sent]) rfl
  all_goals
    refine acts_of_event ?_ rfl (by simp [hq, sent]) rfl
    simp [positionEvent, burstAt, ctrlAt, queueEventAt, pollsHere, ho, hq, sync1Burst, sync2Burst, clkBurst, divBurst,
      loopBurst, Config.initDir, Config.initVal, rxCount]

theorem advanceClose_acts (ho : s.op = .closeOp) (h : advanceClose s = .next t) : Acts s t := by
  unfold advanceClose at h
  split at h <;> cases h
  case h_1 hq => exact closeRelease_acts ho hq
  case h_2 hq =>
    exact acts_of_silent (by simp [positionEvent, burstAt, ctrlAt, queueEventAt, pollsHere, ho, hq])
      (.inr ⟨rfl, succeed_deliversResult [] s⟩) (by simp [hq, sent]) rfl

theorem advanceSetAddr_acts {a : BitVec 7} (ho : s.op = .setAddrOp) (h : advanceSetAddr a s = .next t) : Acts s t := by
  unfold advanceSetAddr at h
  split at h <;> cases h
  case h_1 hq =>
    exact acts_of_silent (by simp [positionEvent, burstAt, ctrlAt, queueEventAt, pollsHere, ho, hq])
      (.inr ⟨rfl, succeed_deliversResult [] s⟩) (by simp [hq, sent]) rfl

theorem advanceRdReg_acts {n : Byte} (ho : s.op = .rdRegOp) (h : advanceRdReg n s = .next t) : Acts s t := by
  unfold advanceRdReg at h
  split at h <;> cases h
  case h_1 hq => exact sessionCheck_acts (.inl ho) hq
  case h_2 hq => exact buildClear_acts (.inl ho) hq
  case h_3 hq => exact sendBuffer_acts _ (.inl ho) hq
  case h_4 hq => exact validate_acts true (.inl ho) hq

theorem advanceWrReg_acts (ho : s.op = .wrRegOp) (h : advanceWrReg s = .next t) : Acts s t := by
  unfold advanceWrReg at h
  split at h <;> cases h
  case h_1 hq => exact sessionCheck_acts (.inr ho) hq
  case h_2 hq => exact buildClear_acts (.inr ho) hq
  case h_3 hq => exact sendBuffer_acts _ (.inr ho) hq
  case h_4 hq => exact validate_acts false (.inr ho) hq

theorem advance_acts (h : advance s = .next t) : Acts s t := by
  unfold advance at h
  split at h <;> rename_i ho
  · exact advanceOpen_acts ho h
  · exact advanceClose_acts ho h
  · exact advanceSetAddr_acts ho h
  · exact advanceRdReg_acts ho h
  · exact advanceWrReg_acts ho h

/-! ## Polls and primitives -/

/-- Where the controller polls, the position's event is the poll's. -/
theorem positionEvent_of_pollsHere (hp : pollsHere s = true) : positionEvent s = queueEventAt s := by
  unfold pollsHere at hp
  split at hp
  all_goals simp_all [positionEvent, burstAt, ctrlAt]

/-- A poll stays in its SEQ state until it ends, and a transaction's poll is followed by its validation. -/
theorem sent_afterPoll_iff (c : Bool) (s : State) : sent (if c then afterPoll s else s).seq = sent s.seq := by
  cases c
  · rfl
  · cases hq : s.seq <;> simp [afterPoll, hq, sent]

theorem execPoll_seq {n : Nat} (h : execPoll n s = .next t) : t.seq = s.seq := by
  obtain ⟨-, rfl⟩ | ⟨-, rfl⟩ | ⟨-, rfl⟩ | ⟨m, -, rfl⟩ := execPoll_cases h
  · rfl
  · obtain ⟨-, -, h⟩ | ⟨-, -, h⟩ | ⟨-, h⟩ := pollSample_cases n s <;> rw [h] <;> rfl
  · rfl
  · rfl

/-- One step of a poll records its sample or its retrieval. -/
theorem execPoll_hist {n : Nat} (hp : pollsHere s = true) (h : execPoll n s = .next t) :
    t.hist = s.hist ++ (queueEventAt s).toList := by
  obtain ⟨ha, rfl⟩ | ⟨ha, rfl⟩ | ⟨ha, rfl⟩ | ⟨m, ha, rfl⟩ := execPoll_cases h <;>
    simp only [queueEventAt, hp, ha, if_true]
  · simp
  · obtain ⟨hc, -, h⟩ | ⟨hc, -, h⟩ | ⟨hc, h⟩ := pollSample_cases n s
    · simp [h, hc]
    · simp [h, hc]
    · simp [h, Nat.not_lt.2 hc]
  · simp
  · simp

@[simp] theorem afterPoll_hist (s : State) : (afterPoll s).hist = s.hist := by
  unfold afterPoll
  split <;> rfl

theorem poll_acts {n : Nat} (c : Bool) (hp : pollsHere s = true) (h : execPoll n s = .next t) :
    Acts s (if c then afterPoll t else t) where
  records := by
    rw [positionEvent_of_pollsHere hp]
    refine .inl ?_
    rw [← execPoll_hist hp h]
    cases c <;> simp
  sends hs ht := by rw [sent_afterPoll_iff, execPoll_seq h, hs] at ht; cases ht
  waits hs _ := by rw [sent_afterPoll_iff, execPoll_seq h, hs]

/-- The primitive of a build position appends to CB and does nothing else (R150). -/
theorem exec_primitiveAt {p : BuildPos} {i : Instr} (hi : primitiveAt s p = some i) :
    ∃ bs, exec i s = .next (cbAppend bs s) := by
  cases ho : s.op <;> cases p <;> simp [primitiveAt, ho] at hi <;> subst hi <;> exact ⟨_, rfl⟩

/-- Moving on after a primitive changes SEQ and IDX only. -/
theorem afterPrimitive_eq (s : State) : ∃ q i, afterPrimitive s = { s with seq := q, idx := i } := by
  cases hq : s.seq
  case tBuild p =>
    cases p <;> simp only [afterPrimitive, hq]
    case wrRegAddr => unfold afterRegAddr; split <;> exact ⟨_, _, rfl⟩
    case wrAddrR => unfold enterRead; split <;> exact ⟨_, _, rfl⟩
    case rdLoop => unfold afterRead; split <;> exact ⟨_, _, rfl⟩
    all_goals exact ⟨_, _, rfl⟩
  all_goals simp only [afterPrimitive, hq]; exact ⟨_, _, rfl⟩

/-- The build ends at T_TX, before the send. -/
theorem sent_afterPrimitive {p : BuildPos} (hq : s.seq = .tBuild p) : sent (afterPrimitive s).seq = false := by
  cases p <;> simp only [afterPrimitive, hq]
  case wrRegAddr => unfold afterRegAddr; split <;> rfl
  case wrAddrR => unfold enterRead; split <;> rfl
  case rdLoop => unfold afterRead; split <;> simp [sent, hq]
  all_goals simp [sent]

theorem positionEvent_of_tBuild {p : BuildPos} (hq : s.seq = .tBuild p) : positionEvent s = none := by
  cases ho : s.op <;> simp [positionEvent, burstAt, ctrlAt, queueEventAt, pollsHere, ho, hq]

theorem primitive_acts {p : BuildPos} {bs : List Byte} (hq : s.seq = .tBuild p) :
    Acts s (afterPrimitive (cbAppend bs s)) := by
  obtain ⟨q, i, he⟩ := afterPrimitive_eq (cbAppend bs s)
  exact acts_of_silent (positionEvent_of_tBuild hq) (records_of_hist_eq (by rw [he]; rfl)) (by simp [hq, sent])
    (sent_afterPrimitive (p := p) hq)

/-! ## One step of any agent -/

/-- Passing the turn is no part of what an action does. -/
theorem acts_endTurn (h : Acts s t) : Acts s (endTurn t) := ⟨h.records, h.sends, h.waits⟩

/-- A busy controller's step is the action of its position. -/
theorem controllerTurn_acts (hb : s.busy = true) (h : controllerTurn s = .next t) : Acts s t := by
  obtain ⟨hp, u, hu, rfl⟩ | ⟨-, p, i, u, hq, hi, hu, rfl⟩ | ⟨-, -, u, hu, rfl⟩ := controllerTurn_busy_cases hb h
  · exact acts_endTurn (poll_acts _ hp hu)
  · obtain ⟨bs, hx⟩ := exec_primitiveAt hi
    obtain rfl : cbAppend bs s = u := by simpa [hx] using hu
    exact acts_endTurn (primitive_acts hq)
  · rw [exec_inProgress hb] at hu
    exact acts_endTurn (advance_acts hu)

/-- A host operation on an idle block is accepted (R93). -/
theorem exec_hostOperation_idle {i : Instr} (hl : i.level = .hostOperation) (hb : s.busy = false) :
    ∃ o w, exec i s = .next (accept o w s) := by
  cases i <;> simp only [Instr.level, reduceCtorEq] at hl <;>
    exact ⟨_, _, hostOperation_of_idle hb⟩

/-- An idle controller changes the history at most by the failure of an illegal word, and waits for no response. -/
theorem controllerTurn_idle_records (hb : s.busy = false) (h : controllerTurn s = .next t) :
    Records none s t ∧ (sent s.seq = false → sent t.seq = false) := by
  obtain ⟨-, rfl⟩ | ⟨w, e, -, -, rfl⟩ | ⟨w, i, u, -, hd, hu, rfl⟩ := controllerTurn_idle_cases hb h
  · exact ⟨records_of_hist_eq rfl, id⟩
  · exact ⟨.inr ⟨rfl, rfl, rfl⟩, fun _ => rfl⟩
  · obtain ⟨o, v, hx⟩ := exec_hostOperation_idle (decodeHost_level hd) hb
    obtain rfl : accept o v s = u := by simpa [hx] using hu
    exact ⟨records_of_hist_eq rfl, fun _ => by cases o <;> rfl⟩

/-- The bridge's step leaves the block as it is. -/
theorem bridgeTurn_frame (h : bridgeTurn s = .next t) :
    ∃ b e n d, t = { s with bridge := b, bus := e, inputs := n, draws := d, turn := .env } := by
  obtain rfl | rfl | ⟨i, rest, u, -, hl, hu, rfl⟩ := bridgeTurn_cases h
  · exact ⟨_, _, _, _, rfl⟩
  · exact ⟨_, _, _, _, rfl⟩
  · obtain ⟨b, e, n, d, rfl⟩ := exec_bridgeCommand_frame hl hu
    exact ⟨_, _, _, _, rfl⟩

/-- The environment's step leaves the block as it is, but for the word at its port, or resets it. -/
theorem envTurn_frame (e : EnvEvent) (s : State) :
    applyEvent e (takeEvent s) = resetInput (takeEvent s) ∨
      ∃ b n d q w, applyEvent e (takeEvent s) = { s with bridge := b, inputs := n, draws := d, turn := q, port := w } := by
  obtain ⟨n, d, he⟩ := takeEvent_eq s
  rw [he]
  cases e with
  | reset => exact .inl rfl
  | present w =>
    right
    simp only [applyEvent, presentWord]
    split <;> exact ⟨_, _, _, _, _, rfl⟩
  | _ => exact .inr ⟨_, _, _, _, _, rfl⟩

@[simp] theorem takeEvent_hist (s : State) : (takeEvent s).hist = s.hist := by
  obtain ⟨n, d, he⟩ := takeEvent_eq s
  rw [he]

theorem eventAt_of_controller (ht : s.turn = .controller) (hb : s.busy = true) : eventAt s = positionEvent s := by
  simp [eventAt, ht, hb]

theorem eventAt_of_not (h : ¬ (s.turn = .controller ∧ s.busy = true)) : eventAt s = none := by
  simp only [eventAt, h, if_false]

/-- Where the agent whose turn it is is not a busy controller, only an idle controller may record anything, the failure of
an illegal word, and no wait for a response begins; a wait that is under way goes on, or a reset ends it. -/
theorem step_otherwise (hn : ¬ (s.turn = .controller ∧ s.busy = true)) (h : step s = .next t) :
    (t.hist = s.hist ∨ s.turn = .controller ∧ DeliversResult s t) ∧ (sent s.seq = false → sent t.seq = false) ∧
      (s.busy = true → t.busy = true → t.seq = s.seq) := by
  cases ht : s.turn with
  | controller =>
    have hb : s.busy = false := by simpa [ht] using hn
    rw [step_controller ht] at h
    obtain ⟨hr | ⟨-, hr⟩, hs⟩ := controllerTurn_idle_records hb h
    · exact ⟨.inl (by simpa using hr), hs, by simp [hb]⟩
    · exact ⟨.inr ⟨rfl, hr⟩, hs, by simp [hb]⟩
  | bridge =>
    rw [step_bridge ht] at h
    obtain ⟨b, e, n, d, rfl⟩ := bridgeTurn_frame h
    exact ⟨.inl rfl, id, fun _ _ => rfl⟩
  | env =>
    obtain rfl : applyEvent (nextEvent s) (takeEvent s) = t := by simpa [step_env ht] using h
    obtain he | ⟨b, n, d, q, w, he⟩ := envTurn_frame (nextEvent s) s <;> rw [he]
    · exact ⟨.inl (by simp), fun _ => rfl, fun _ hb => by simp at hb⟩
    · exact ⟨.inl rfl, id, fun _ _ => rfl⟩

/-- A step records the event of its position, or, where there is none, possibly the controller delivers a result. -/
theorem step_hist (h : step s = .next t) :
    t.hist = s.hist ++ (eventAt s).toList ∨ eventAt s = none ∧ s.turn = .controller ∧ DeliversResult s t := by
  by_cases hc : s.turn = .controller ∧ s.busy = true
  · obtain ⟨ht, hb⟩ := hc
    rw [step_controller ht] at h
    rw [eventAt_of_controller ht hb]
    obtain hr | ⟨hn, hr⟩ := (controllerTurn_acts hb h).records
    · exact .inl hr
    · exact .inr ⟨hn, ht, hr⟩
  · rw [eventAt_of_not hc]
    obtain ⟨hr | hr, -⟩ := step_otherwise hc h
    · exact .inl (by simpa using hr)
    · exact .inr ⟨rfl, hr⟩

/-- The wait for a response begins only by sending the whole of CB, and it goes on until the operation ends. -/
theorem step_sent (h : step s = .next t) :
    (sent s.seq = false → sent t.seq = true → eventAt s = some (.txWrite s.cb)) ∧
      (s.busy = true → sent s.seq = true → t.busy = true → sent t.seq = true) := by
  by_cases hc : s.turn = .controller ∧ s.busy = true
  · obtain ⟨ht, hb⟩ := hc
    rw [step_controller ht] at h
    have ha := controllerTurn_acts hb h
    refine ⟨fun hs hs' => ?_, fun _ => ha.waits⟩
    rw [eventAt_of_controller ht hb, positionEvent, ha.sends hs hs']
    rfl
  · obtain ⟨-, hs, hq⟩ := step_otherwise hc h
    exact ⟨fun h0 h1 => by simp [hs h0] at h1, fun hb h0 hb' => by rw [hq hb hb', h0]⟩

/-! ## Reading an event off its position -/

/-- No position sends both a burst and a control event. -/
theorem burstAt_of_ctrlAt {e : CtrlEvent} (h : ctrlAt s = some e) : burstAt s = none := by
  unfold ctrlAt at h
  split at h <;> simp_all [burstAt]

theorem queueEventAt_cases {e : Event} (h : queueEventAt s = some e) :
    (e = .rxCount (rxCount s) ∧ (s.op = .openOp ∧ s.seq = .oDrain ∨
      pollsHere s = true ∧ (s.pollAt = .sample ∧ s.pollcnt.toNat < Config.pollMax ∨ s.pollAt = .count))) ∨
      (pollsHere s = true ∧ ∃ m, s.pollAt = .retrieve m ∧ e = .rxRead (s.bridge.rxq.take m)) := by
  unfold queueEventAt at h
  by_cases hp : pollsHere s = true
  · simp only [hp, if_true] at h
    split at h <;> rename_i ha
    · cases h
    · split at h <;> cases h
      exact .inl ⟨rfl, .inr ⟨hp, .inl ⟨ha, ‹_›⟩⟩⟩
    · cases h
      exact .inl ⟨rfl, .inr ⟨hp, .inr ha⟩⟩
    · cases h
      exact .inr ⟨hp, _, ha, rfl⟩
  · rw [if_neg hp] at h
    split at h <;> cases h
    exact .inl ⟨rfl, .inl ‹_›⟩

/-- The event of a step is its position's burst, its control event, or what it reads of the queue. -/
theorem eventAt_cases {e : Event} (h : eventAt s = some e) :
    s.turn = .controller ∧ s.busy = true ∧
      ((∃ bs, e = .txWrite bs ∧ burstAt s = some bs) ∨ (∃ c, e = .ctrl c ∧ ctrlAt s = some c) ∨
        queueEventAt s = some e) := by
  unfold eventAt positionEvent at h
  split at h
  case isFalse => cases h
  case isTrue hc =>
    refine ⟨hc.1, hc.2, ?_⟩
    simp only [Option.or_eq_some_iff, Option.map_eq_some_iff] at h
    obtain ⟨bs, hb, rfl⟩ | ⟨-, ⟨c, hc, rfl⟩ | ⟨-, hq⟩⟩ := h
    · exact .inl ⟨bs, rfl, hb⟩
    · exact .inr (.inl ⟨c, rfl, hc⟩)
    · exact .inr (.inr hq)

theorem eventAt_eq_txWrite {bs : List Byte} (h : eventAt s = some (.txWrite bs)) :
    s.turn = .controller ∧ s.busy = true ∧ burstAt s = some bs := by
  obtain ⟨ht, hb, ⟨bs', he, h⟩ | ⟨c, he, -⟩ | hq⟩ := eventAt_cases h
  · cases he; exact ⟨ht, hb, h⟩
  · cases he
  · obtain ⟨he, -⟩ | ⟨-, m, -, he⟩ := queueEventAt_cases hq <;> cases he

theorem eventAt_eq_ctrl {e : CtrlEvent} (h : eventAt s = some (.ctrl e)) :
    s.turn = .controller ∧ s.busy = true ∧ ctrlAt s = some e := by
  obtain ⟨ht, hb, ⟨bs', he, h⟩ | ⟨c, he, h⟩ | hq⟩ := eventAt_cases h
  · cases he
  · cases he; exact ⟨ht, hb, h⟩
  · obtain ⟨he, -⟩ | ⟨-, m, -, he⟩ := queueEventAt_cases hq <;> cases he

theorem eventAt_eq_rxCount {n : Nat} (h : eventAt s = some (.rxCount n)) :
    s.turn = .controller ∧ s.busy = true ∧ n = rxCount s ∧ (s.op = .openOp ∧ s.seq = .oDrain ∨
      pollsHere s = true ∧ (s.pollAt = .sample ∧ s.pollcnt.toNat < Config.pollMax ∨ s.pollAt = .count)) := by
  obtain ⟨ht, hb, ⟨bs', he, -⟩ | ⟨c, he, -⟩ | hq⟩ := eventAt_cases h
  · cases he
  · cases he
  · obtain ⟨he, hp⟩ | ⟨-, m, -, he⟩ := queueEventAt_cases hq <;> cases he
    exact ⟨ht, hb, rfl, hp⟩

theorem eventAt_eq_rxRead {bs : List Byte} (h : eventAt s = some (.rxRead bs)) :
    s.turn = .controller ∧ s.busy = true ∧ pollsHere s = true ∧
      ∃ m, s.pollAt = .retrieve m ∧ bs = s.bridge.rxq.take m := by
  obtain ⟨ht, hb, ⟨bs', he, -⟩ | ⟨c, he, -⟩ | hq⟩ := eventAt_cases h
  · cases he
  · cases he
  · obtain ⟨he, -⟩ | ⟨hp, m, ha, he⟩ := queueEventAt_cases hq <;> cases he
    exact ⟨ht, hb, hp, m, ha, rfl⟩

theorem eventAt_ne_result (r : HostWord) (d : List Byte) : eventAt s ≠ some (.result r d) := by
  intro h
  obtain ⟨-, -, ⟨bs', he, -⟩ | ⟨c, he, -⟩ | hq⟩ := eventAt_cases h
  · cases he
  · cases he
  · obtain ⟨he, -⟩ | ⟨-, m, -, he⟩ := queueEventAt_cases hq <;> cases he

theorem eventAt_of_burstAt {bs : List Byte} (ht : s.turn = .controller) (hb : s.busy = true)
    (h : burstAt s = some bs) : eventAt s = some (.txWrite bs) := by
  rw [eventAt_of_controller ht hb, positionEvent, h]
  rfl

theorem eventAt_of_ctrlAt {e : CtrlEvent} (ht : s.turn = .controller) (hb : s.busy = true)
    (h : ctrlAt s = some e) : eventAt s = some (.ctrl e) := by
  rw [eventAt_of_controller ht hb, positionEvent, burstAt_of_ctrlAt h, h]
  rfl

/-! ## Histories only grow -/

/-- The history gains an event that is no result only as the event of the position. -/
theorem eventAt_of_hist (h : step s = .next t) {e : Event} (hr : ∀ r d, e ≠ .result r d) (he : t.hist = s.hist ++ [e]) :
    eventAt s = some e := by
  obtain hs | ⟨-, -, -, hs⟩ := step_hist h
  · rw [he, List.append_cancel_left_eq] at hs
    cases hv : eventAt s <;> simp_all
  · rw [he, List.append_cancel_left_eq] at hs
    exact absurd (List.singleton_inj.1 hs) (hr _ _)

/-- A position that has an event records it. -/
theorem hist_of_eventAt (h : step s = .next t) {e : Event} (he : eventAt s = some e) : t.hist = s.hist ++ [e] := by
  obtain hs | ⟨hn, -⟩ := step_hist h
  · simpa [he] using hs
  · simp [he] at hn

/-- The bursts sent are as before, or one longer by the burst of the position. -/
theorem step_txh (h : step s = .next t) :
    t.txh = s.txh ∨ ∃ bs, eventAt s = some (.txWrite bs) ∧ t.txh = s.txh ++ [bs] := by
  obtain hs | ⟨-, -, -, hs⟩ := step_hist h <;> rw [State.txh, hs, List.filterMap_append]
  · cases he : eventAt s with
    | none => exact .inl (by simp [State.txh])
    | some e =>
      cases e with
      | txWrite bs => exact .inr ⟨bs, rfl, rfl⟩
      | _ => exact .inl (by simp [State.txh, Event.burst?])
  · exact .inl (by simp [State.txh, Event.burst?])

/-- A transaction that waits for its response is at no sending position. -/
theorem burstAt_of_sent (h : sent s.seq = true) : burstAt s = none := by
  unfold burstAt
  split <;> simp_all [sent]

end

/-- Settles O54: every clause is read off the event of the position (`step_hist`), the last two off `step_sent`. -/
theorem historiesOnlyGrow : Obligations.HistoriesOnlyGrow := by
  intro s t h
  refine ⟨?one, ?burst, ?ctrl, ?count, ?read, ?result, ?sends, ?sendsCtrl, ?begins, ?waits⟩
  case one =>
    obtain hs | ⟨-, -, -, hs⟩ := step_hist h
    · cases he : eventAt s with
      | none => exact .inl (by simpa [he] using hs)
      | some e => exact .inr ⟨e, by simpa [he] using hs⟩
    · exact .inr ⟨_, hs⟩
  case burst => exact fun bs he => eventAt_eq_txWrite (eventAt_of_hist h nofun he)
  case ctrl => exact fun e he => eventAt_eq_ctrl (eventAt_of_hist h nofun he)
  case count => exact fun n he => eventAt_eq_rxCount (eventAt_of_hist h nofun he)
  case read => exact fun bs he => eventAt_eq_rxRead (eventAt_of_hist h nofun he)
  case result =>
    intro r d he
    obtain hs | ⟨-, ht, hb, hs⟩ := step_hist h
    · rw [he, List.append_cancel_left_eq] at hs
      exact absurd (by cases hv : eventAt s <;> simp_all) (eventAt_ne_result (s := s) r d)
    · rw [he, List.append_cancel_left_eq, List.singleton_inj] at hs
      cases hs
      exact ⟨ht, hb, rfl, rfl⟩
  case sends => exact fun bs ht hb he => hist_of_eventAt h (eventAt_of_burstAt ht hb he)
  case sendsCtrl => exact fun e ht hb he => hist_of_eventAt h (eventAt_of_ctrlAt ht hb he)
  case begins => exact fun hs hs' => hist_of_eventAt h ((step_sent h).1 hs hs')
  case waits =>
    intro hb hs hb'
    refine ⟨(step_sent h).2 hb hs hb', ?_⟩
    obtain hx | ⟨bs, he, -⟩ := step_txh h
    · exact hx
    · obtain ⟨-, -, hbs⟩ := eventAt_eq_txWrite he
      simp [burstAt_of_sent hs] at hbs

end Sys2Proof.Machine
end

section
/-! The bursts of the block: their lengths, and the streams of commands they are made of. -/

namespace Sys2Proof

/-! ## Repeated byte sequences -/

@[simp] theorem repeatBytes_zero (s : List Byte) : repeatBytes 0 s = [] := rfl

theorem repeatBytes_succ (n : Nat) (s : List Byte) : repeatBytes (n + 1) s = s ++ repeatBytes n s := rfl

@[simp] theorem length_repeatBytes (n : Nat) (s : List Byte) : (repeatBytes n s).length = n * s.length := by
  induction n with
  | zero => simp
  | succ n ih => rw [repeatBytes_succ, List.length_append, ih]; ring

/-- One more copy may be put at either end. -/
theorem repeatBytes_append_self (n : Nat) (s : List Byte) : repeatBytes n s ++ s = repeatBytes (n + 1) s := by
  induction n with
  | zero => simp [repeatBytes_succ]
  | succ n ih => rw [repeatBytes_succ, List.append_assoc, ih, ← repeatBytes_succ]

/-! ## Decoding an encoded stream -/

/-- Every bridge command is read back from the front of a stream (R100 to R109, R112). -/
theorem decodeBridge_encodeBridge {i : Instr} {bs : List Byte} (rest : List Byte) (h : encodeBridge i = some bs) :
    decodeBridge (bs ++ rest) = .ok (i, rest) := by
  cases i <;> simp only [encodeBridge, reduceCtorEq, Option.some.injEq] at h <;> subst h <;>
    simp [decodeBridge, decodeGpio, decodeByteOut, decodeByteIn, decodeBitIn, decodeBitOut, decodeSetDiv]

/-- A bridge command has at least its opcode byte. -/
theorem encodeBridge_of_bridgeCommand {i : Instr} (h : i.level = .bridgeCommand) :
    ∃ op rest, encodeBridge i = some (op :: rest) := by
  cases i <;> simp only [Instr.level, reduceCtorEq] at h <;> exact ⟨_, _, rfl⟩

theorem encodeCommands_cons {i : Instr} {bs : List Byte} (is : List Instr) (h : encodeBridge i = some bs) :
    encodeCommands (i :: is) = bs ++ encodeCommands is := by
  simp [encodeCommands, h]

theorem encodeCommands_append (is js : List Instr) :
    encodeCommands (is ++ js) = encodeCommands is ++ encodeCommands js := by
  induction is with
  | nil => rfl
  | cons i is ih => simp [encodeCommands, ih]

theorem decodeCommands_encodeCommands {is : List Instr} (hl : ∀ i ∈ is, i.level = .bridgeCommand) {k : Nat}
    (hk : (encodeCommands is).length ≤ k) : decodeCommands k (encodeCommands is) = some is := by
  induction is generalizing k with
  | nil => cases k <;> rfl
  | cons i is ih =>
    obtain ⟨op, tl, he⟩ := encodeBridge_of_bridgeCommand (hl i (by simp))
    have hd := decodeBridge_encodeBridge (encodeCommands is) he
    rw [encodeCommands_cons is he] at hk ⊢
    cases k with
    | zero => simp at hk
    | succ k =>
      have hk' : (encodeCommands is).length ≤ k := by simp at hk; omega
      rw [List.cons_append, decodeCommands, ← List.cons_append, hd]
      simp [ih (fun j hj => hl j (by simp [hj])) hk']

/-- A burst of bridge commands decodes to those commands. -/
theorem decodeBurst_encodeCommands {is : List Instr} (hl : ∀ i ∈ is, i.level = .bridgeCommand) :
    decodeBurst (encodeCommands is) = some is :=
  decodeCommands_encodeCommands hl le_rfl

end Sys2Proof

namespace Sys2Proof.Machine

/-! ## Lengths -/

@[simp] theorem length_gpioTriple (d : Byte) : (gpioTriple d).length = 3 := rfl

theorem length_startBytes : startBytes.length = 54 := rfl

theorem length_stopBytes : stopBytes.length = 54 := rfl

theorem length_gpioStep (c : NRepData) (d : Byte) : (gpioStep c d).length = c.count * 3 := by
  simp [gpioStep]

theorem length_wrByteBytes (c : NRepData) (v : Byte) : (wrByteBytes c v).length = 7 + 6 * c.count := by
  simp only [wrByteBytes, List.length_append, length_gpioStep, List.length_cons, List.length_nil]
  ring

theorem length_rdByteBytes (c : NRepData) (w : Bool) : (rdByteBytes c w).length = 7 + 9 * c.count := by
  simp only [rdByteBytes, List.length_append, length_gpioStep, List.length_cons, List.length_nil]
  ring

theorem length_addressPart (c : NRepData) (a : BitVec 7) (r : Byte) :
    (addressPart c a r).length = 54 + 2 * (7 + 6 * c.count) := by
  simp only [addressPart, List.length_append, length_startBytes, length_wrByteBytes]
  ring

theorem length_readPlan (c : NRepData) (n : Nat) : (readPlan c n).length = n * (7 + 9 * c.count) := by
  cases n with
  | zero => simp [readPlan]
  | succ k =>
    simp only [readPlan, List.length_append, length_repeatBytes, length_rdByteBytes]
    ring

theorem length_wrRegBurst (c : NRepData) (a : BitVec 7) (r v : Byte) :
    (wrRegBurst c a r v).length = 108 + 3 * (7 + 6 * c.count) := by
  simp only [wrRegBurst, List.length_append, length_addressPart, length_wrByteBytes, length_stopBytes]
  ring

theorem length_rdRegBurst (c : NRepData) (a : BitVec 7) (r n : Byte) :
    (rdRegBurst c a r n).length = 162 + 3 * (7 + 6 * c.count) + n.toNat * (7 + 9 * c.count) := by
  simp only [rdRegBurst, List.length_append, length_addressPart, length_startBytes, length_wrByteBytes,
    length_readPlan, length_stopBytes]
  ring

/-- Settles O26: the lengths add up piece by piece, and a count is at most 255. -/
theorem transactionBurstLengths : Obligations.TransactionBurstLengths := by
  intro c a r v n
  have hn : n.toNat * (7 + 9 * c.count) ≤ 255 * (7 + 9 * c.count) := Nat.mul_le_mul_right _ (by omega)
  rw [length_wrRegBurst, length_rdRegBurst]
  exact ⟨rfl, rfl, by unfold Config.cbDepth; omega, by unfold Config.cbDepth; omega⟩

/-! ## Stretches of a stream -/

/-- A command the block may emit: of R100, with operands it may use, and no GPIO triple that drives a line high. -/
def Emittable (i : Instr) : Prop := i.level = .bridgeCommand ∧ i.wellFormed = true ∧ drivesHigh i = false

/-- `bs` is a stretch of emittable commands that takes the scan for acknowledgements from `a` to `b` and yields `r`
response bytes. -/
def Stretch (a b : AckScan) (bs : List Byte) (r : Nat) : Prop :=
  ∃ is, bs = encodeCommands is ∧ (∀ i ∈ is, Emittable i) ∧
    (∀ rest, ackFollows a (is ++ rest) = ackFollows b rest) ∧ responseTotal is = r

theorem responseTotal_append (is js : List Instr) : responseTotal (is ++ js) = responseTotal is + responseTotal js := by
  induction is with
  | nil => simp [responseTotal]
  | cons i is ih => simp [responseTotal, ih, Nat.add_assoc]

section
variable {a b c : AckScan} {bs bs' : List Byte} {m n : Nat}

theorem Stretch.nil : Stretch a a [] 0 := ⟨[], rfl, by simp, fun _ => rfl, rfl⟩

theorem Stretch.append (h : Stretch a b bs m) (h' : Stretch b c bs' n) : Stretch a c (bs ++ bs') (m + n) := by
  obtain ⟨is, rfl, hi, hs, rfl⟩ := h
  obtain ⟨js, rfl, hj, hs', rfl⟩ := h'
  refine ⟨is ++ js, (encodeCommands_append is js).symm, fun i hm => ?_, fun rest => ?_, responseTotal_append is js⟩
  · obtain hm | hm := List.mem_append.1 hm
    · exact hi i hm
    · exact hj i hm
  · rw [List.append_assoc, hs, hs']

theorem Stretch.replicate (k : Nat) (h : Stretch a a bs m) : Stretch a a (repeatBytes k bs) (k * m) := by
  induction k with
  | zero => simpa using Stretch.nil
  | succ k ih => rw [repeatBytes_succ, Nat.add_mul, one_mul, Nat.add_comm]; exact h.append ih

theorem Stretch.command {i : Instr} (he : encodeBridge i = some bs) (hi : Emittable i)
    (hs : ∀ rest, ackFollows a (i :: rest) = ackFollows b rest) : Stretch a b bs (responseCount i) :=
  ⟨[i], by simp [encodeCommands, he], by simpa using hi, hs, rfl⟩

/-- A whole burst: the scan begins and ends with no byte write open. -/
theorem Stretch.decodes (h : Stretch .clear .clear bs m) :
    disciplined bs = true ∧ ∃ is, decodeBurst bs = some is ∧ responseTotal is = m := by
  obtain ⟨is, rfl, hi, hs, hm⟩ := h
  have hd := decodeBurst_encodeCommands (is := is) fun i hm => (hi i hm).1
  refine ⟨?_, is, hd, hm⟩
  have ha : ackFollows .clear is = true := by simpa [ackFollows] using hs []
  simp only [disciplined, hd, ha, Bool.and_true, List.all_eq_true, Bool.and_eq_true, beq_iff_eq, Bool.not_eq_true']
  exact fun i hm => ⟨⟨(hi i hm).1, (hi i hm).2.1⟩, (hi i hm).2.2⟩

/-! ## The primitives as stretches -/

/-- A GPIO triple of the block concerns no acknowledgement (R102, R103). -/
theorem stretch_gpioTriple {d : Byte} (hd : directionMaskOk d = true) : Stretch a a (gpioTriple d) 0 := by
  refine Stretch.command (i := .gpio d Config.val0) rfl ⟨rfl, ?_, ?_⟩ fun rest => ?_
  · simp [Instr.wellFormed, hd, valueMaskOk, Config.val0]
  · simp [drivesHigh, openDrain, Config.val0]
  · cases a <;> rfl

theorem stretch_gpioStep (k : NRepData) {d : Byte} (hd : directionMaskOk d = true) : Stretch a a (gpioStep k d) 0 :=
  Stretch.replicate k.count (stretch_gpioTriple hd)

theorem stretch_phase {d : Byte} (hd : directionMaskOk d = true) : Stretch a a (phase d) 0 :=
  Stretch.replicate Config.nrepCond (stretch_gpioTriple hd)

theorem stretch_startBytes : Stretch .clear .clear startBytes 0 :=
  ((stretch_phase rfl).append (stretch_phase rfl)).append (stretch_phase rfl)

theorem stretch_stopBytes : Stretch .clear .clear stopBytes 0 :=
  ((stretch_phase rfl).append (stretch_phase rfl)).append (stretch_phase rfl)

theorem stretch_sendNow (h : a = .clear ∨ a = .wantsFlush) : Stretch a .clear [0x87#8] 0 := by
  refine Stretch.command (i := .sendNow) rfl ⟨rfl, rfl, rfl⟩ fun rest => ?_
  obtain rfl | rfl := h <;> rfl

/-- WRBYTE opens a byte write with BYTE_OUT, reads its acknowledgement bit, and flushes (R155). -/
theorem stretch_wrByteBytes (k : NRepData) (v : Byte) : Stretch .clear .clear (wrByteBytes k v) 1 := by
  have hout : Stretch .clear .wantsBit [0x11#8, 0x00#8, 0x00#8, v] 0 :=
    Stretch.command (i := .byteOut v) rfl ⟨rfl, rfl, rfl⟩ fun _ => rfl
  have hbit : Stretch .wantsBit .wantsFlush [0x22#8, 0x00#8] 1 :=
    Stretch.command (i := .bitIn) rfl ⟨rfl, rfl, rfl⟩ fun _ => rfl
  exact ((((stretch_gpioStep k rfl).append hout).append (stretch_gpioStep k rfl)).append hbit).append
    (stretch_sendNow (.inr rfl))

theorem ackByteOk_ackByte (w : Bool) : ackByteOk (ackByte w) = true := by cases w <;> rfl

/-- RDBYTE writes no byte (R157). -/
theorem stretch_rdByteBytes (k : NRepData) (w : Bool) : Stretch .clear .clear (rdByteBytes k w) 1 := by
  have hin : Stretch .clear .clear [0x20#8, 0x00#8, 0x00#8] 1 :=
    Stretch.command (i := .byteIn) rfl ⟨rfl, rfl, rfl⟩ fun _ => rfl
  have hbit : Stretch .clear .clear [0x13#8, 0x00#8, ackByte w] 0 :=
    Stretch.command (i := .bitOut (ackByte w)) rfl ⟨rfl, ackByteOk_ackByte w, rfl⟩ fun _ => rfl
  exact (((((stretch_gpioStep k rfl).append hin).append (stretch_gpioStep k rfl)).append hbit).append
    (stretch_gpioStep k rfl)).append (stretch_sendNow (.inl rfl))

/-! ## The bursts as stretches -/

theorem stretch_addressPart (k : NRepData) (ad : BitVec 7) (r : Byte) :
    Stretch .clear .clear (addressPart k ad r) 2 :=
  (stretch_startBytes.append (stretch_wrByteBytes k _)).append (stretch_wrByteBytes k r)

theorem stretch_readPlan (k : NRepData) (j : Nat) : Stretch .clear .clear (readPlan k j) j := by
  cases j with
  | zero => exact Stretch.nil
  | succ j => simpa [readPlan] using (Stretch.replicate j (stretch_rdByteBytes k true)).append (stretch_rdByteBytes k false)

theorem stretch_wrRegBurst (k : NRepData) (ad : BitVec 7) (r v : Byte) :
    Stretch .clear .clear (wrRegBurst k ad r v) 3 :=
  ((stretch_addressPart k ad r).append (stretch_wrByteBytes k v)).append stretch_stopBytes

theorem stretch_rdRegBurst (k : NRepData) (ad : BitVec 7) (r j : Byte) :
    Stretch .clear .clear (rdRegBurst k ad r j) (j.toNat + 3) := by
  have h := ((((stretch_addressPart k ad r).append stretch_startBytes).append
    (stretch_wrByteBytes k (addrByte ad 1#1))).append (stretch_readPlan k j.toNat)).append stretch_stopBytes
  rwa [show 2 + 0 + 1 + j.toNat + 0 = j.toNat + 3 by omega] at h

end

/-- OPEN's divider burst: a GPIO triple that releases both lines, then the divider (R133 step 11). -/
theorem stretch_divBurst (d : BitVec 16) : Stretch .clear .clear (divBurst d) 0 :=
  Stretch.append (stretch_gpioTriple (d := Config.initDir) rfl)
    (Stretch.command (i := .setDiv (d.extractLsb' 0 8) (d.extractLsb' 8 8)) rfl ⟨rfl, rfl, rfl⟩ fun _ => rfl)

/-- What a disciplined stream is. -/
theorem disciplined_iff {bs : List Byte} :
    disciplined bs = true ↔
      ∃ is, decodeBurst bs = some is ∧ ackFollows .clear is = true ∧ ∀ i ∈ is, Emittable i := by
  unfold disciplined Emittable
  cases decodeBurst bs with
  | none => simp
  | some is => simp [and_comm, and_assoc]

end Sys2Proof.Machine
end

section
/-! What CB holds while a transaction is built, and the statement that every burst is a disciplined stream. -/

namespace Sys2Proof.Machine

/-! ## CB along the build -/

section
variable {s t : State}

/-- Where the plan says nothing of CB, nothing is asked of it. -/
theorem buildInv_of_none (h : builtSoFar t = none) (hq : t.seq ≠ .tBuild .rdLoop) : BuildInv t :=
  ⟨by simp [h], fun _ h' => absurd h' hq⟩

/-- Outside the read loop CB has to be what the plan says. -/
theorem buildInv_of_some {bs : List Byte} (h : builtSoFar t = some bs) (hc : t.cb = bs)
    (hq : t.seq ≠ .tBuild .rdLoop) : BuildInv t :=
  ⟨by simpa [h] using hc, fun _ h' => absurd h' hq⟩

theorem buildInv_of_idle (h : t.seq = .idle) : BuildInv t :=
  buildInv_of_none (by cases ho : t.op <;> simp [builtSoFar, ho, h]) (by simp [h])

theorem BuildInv.cb_eq (hi : BuildInv s) {bs : List Byte} (h : builtSoFar s = some bs) : s.cb = bs :=
  hi.1 bs (by simp [h])

/-- The plan of `k + 1` reads ends with a read that is not acknowledged. -/
theorem readPlan_succ (c : NRepData) (k : Nat) :
    readPlan c (k + 1) = repeatBytes k (rdByteBytes c true) ++ rdByteBytes c false := rfl

/-- A primitive that appends the next part `b` of the plan and moves on keeps CB as planned. -/
theorem buildInv_append {q : Seq} {bs b : List Byte} (hi : BuildInv s) (hs : builtSoFar s = some bs)
    (ht : builtSoFar (moveTo q (cbAppend b s)) = some (bs ++ b)) (hq : q ≠ .tBuild .rdLoop) :
    BuildInv (moveTo q (cbAppend b s)) :=
  buildInv_of_some ht (by simp [hi.cb_eq hs]) hq

/-- After the read-direction address byte: the read loop at index 0, or, for count 0, the end of the plan. -/
theorem enterRead_buildInv {b : List Byte} (ho : s.op = .rdRegOp) (hq : s.seq = .tBuild .wrAddrR) (hi : BuildInv s)
    (hb : b = wrByteBytes s.cfg.nrepData (addrByte s.addr 1#1)) : BuildInv (enterRead (cbAppend b s)) := by
  have hcb := hi.cb_eq (by simp only [builtSoFar, ho, hq]; rfl)
  unfold enterRead
  split
  case isTrue hz =>
    have hz' : s.aCnt.toNat = 0 := by simpa using congrArg BitVec.toNat hz
    exact ⟨by simp [builtSoFar, ho, hcb, hb, hz', readPlan], by simp⟩
  case isFalse hz =>
    refine ⟨?_, fun _ _ => ?_⟩
    · simp [builtSoFar, ho, hcb, hb]
    · have : s.aCnt.toNat ≠ 0 := fun hn => hz (BitVec.eq_of_toNat_eq hn)
      simp
      omega

/-- After a read: the next index, or, at the last one, the end of the plan. -/
theorem afterRead_buildInv {b : List Byte} (ho : s.op = .rdRegOp) (hq : s.seq = .tBuild .rdLoop) (hi : BuildInv s)
    (hb : b = rdByteBytes s.cfg.nrepData (wantAck s.idx s.aCnt)) : BuildInv (afterRead (cbAppend b s)) := by
  have hcb := hi.cb_eq (by simp only [builtSoFar, ho, hq]; rfl)
  have hlt : s.idx.toNat < s.aCnt.toNat := hi.2 ho hq
  unfold afterRead
  split
  case isTrue hl =>
    have hl' : s.aCnt.toNat = s.idx.toNat + 1 := hl.symm
    have hw : wantAck s.idx s.aCnt = false := by simp [wantAck, hl']
    exact ⟨by simp [builtSoFar, ho, hcb, hb, hw, hl', readPlan_succ], by simp⟩
  case isFalse hl =>
    have hl' : s.idx.toNat + 1 ≠ s.aCnt.toNat := hl
    have hw : wantAck s.idx s.aCnt = true := by simpa [wantAck] using hl'
    have hidx : (s.idx + 1#8).toNat = s.idx.toNat + 1 := by bv_omega
    refine ⟨?_, fun _ _ => ?_⟩
    · simp [builtSoFar, ho, hq, hcb, hb, hw, hidx, ← repeatBytes_append_self]
    · show (s.idx + 1#8).toNat < s.aCnt.toNat
      omega

/-- RDREG's primitives append the next part of its plan (R171). -/
theorem rdReg_primitive_buildInv {p : BuildPos} {i : Instr} (ho : s.op = .rdRegOp) (hq : s.seq = .tBuild p)
    (hp : primitiveAt s p = some i) (hi : BuildInv s) (h : exec i s = .next t) : BuildInv (afterPrimitive t) := by
  cases p <;> simp only [primitiveAt, ho, reduceCtorEq, Option.some.injEq] at hp <;> subst hp <;> cases h <;>
    simp only [afterPrimitive, cbAppend_seq, hq, afterRegAddr, cbAppend_op, ho]
  case wrAddrR => exact enterRead_buildInv ho hq hi rfl
  case rdLoop => exact afterRead_buildInv ho hq hi rfl
  all_goals
    refine buildInv_append hi (by simp only [builtSoFar, ho, hq]; rfl) ?_ (by simp)
    simp [builtSoFar, ho, addressPart, rdRegBurst]

/-- WRREG's primitives append the next part of its plan (R175). -/
theorem wrReg_primitive_buildInv {p : BuildPos} {i : Instr} (ho : s.op = .wrRegOp) (hq : s.seq = .tBuild p)
    (hp : primitiveAt s p = some i) (hi : BuildInv s) (h : exec i s = .next t) : BuildInv (afterPrimitive t) := by
  cases p <;> simp only [primitiveAt, ho, reduceCtorEq, Option.some.injEq] at hp <;> subst hp <;> cases h <;>
    simp only [afterPrimitive, cbAppend_seq, hq, afterRegAddr, cbAppend_op, ho] <;>
    refine buildInv_append hi (by simp only [builtSoFar, ho, hq]; rfl) ?_ (by simp) <;>
    simp [builtSoFar, ho, addressPart, wrRegBurst]

theorem primitive_buildInv {p : BuildPos} {i : Instr} (hq : s.seq = .tBuild p) (hp : primitiveAt s p = some i)
    (hi : BuildInv s) (h : exec i s = .next t) : BuildInv (afterPrimitive t) := by
  cases ho : s.op
  case rdRegOp => exact rdReg_primitive_buildInv ho hq hp hi h
  case wrRegOp => exact wrReg_primitive_buildInv ho hq hp hi h
  all_goals simp [primitiveAt, ho] at hp

/-! ## The other actions of the controller -/

/-- An operation without a build asks nothing of CB. -/
theorem buildInv_of_op (hr : t.op ≠ .rdRegOp) (hw : t.op ≠ .wrRegOp) : BuildInv t :=
  ⟨by cases ho : t.op <;> simp_all [builtSoFar], fun h => absurd h hr⟩

@[simp] theorem takeGrant_op (s : State) : (takeGrant s).op = s.op := by
  obtain ⟨i, d, h⟩ := takeGrant_eq s
  rw [h]

theorem advanceOpen_op {a : BitVec 7} (h : advanceOpen a s = .next t) : t.op = s.op := by
  cases hq : s.seq <;> simp only [advanceOpen, hq, reduceCtorEq, Host.Outcome.next.injEq] at h <;> subst h
  case oCheck => unfold openCheck; split <;> rfl
  case oAcq => unfold openAcquire; split <;> simp
  case oSync1Cmp => rw [openCompare_eq]
  case oSync2Cmp => rw [openCompare_eq]
  all_goals rfl

theorem advanceClose_op (h : advanceClose s = .next t) : t.op = s.op := by
  unfold advanceClose at h
  split at h <;> cases h
  · unfold closeRelease; split <;> rfl
  · rfl

theorem advanceSetAddr_op {a : BitVec 7} (h : advanceSetAddr a s = .next t) : t.op = s.op := by
  unfold advanceSetAddr at h
  split at h <;> cases h
  rfl

theorem sessionCheck_buildInv : BuildInv (sessionCheck s) := by
  unfold sessionCheck
  split
  · exact buildInv_of_idle rfl
  · exact buildInv_of_none (by cases ho : s.op <;> simp [builtSoFar, ho]) (by simp)

theorem buildClear_buildInv (ho : s.op = .rdRegOp ∨ s.op = .wrRegOp) : BuildInv (buildClear s) := by
  refine buildInv_of_some (bs := []) ?_ rfl (by simp [buildClear])
  obtain ho | ho := ho <;> simp [buildClear, builtSoFar, ho]

/-- The send leaves CB as it is, and the plan asks the same of it after the send. -/
theorem sendBuffer_buildInv (n : Nat) (ho : s.op = .rdRegOp ∨ s.op = .wrRegOp) (hq : s.seq = .tTx) (hi : BuildInv s) :
    BuildInv (sendBuffer n s) := by
  obtain ho | ho := ho <;>
    exact buildInv_of_some (by simp only [sendBuffer, builtSoFar, moveTo_op, txWrite_op, moveTo_seq, ho]; rfl)
      (hi.cb_eq (by simp only [builtSoFar, ho, hq]; rfl)) (by simp [sendBuffer])

theorem advance_buildInv (hi : BuildInv s) (h : advance s = .next t) : BuildInv t := by
  unfold advance at h
  split at h <;> rename_i ho
  · have := advanceOpen_op h
    exact buildInv_of_op (by simp [this, ho]) (by simp [this, ho])
  · have := advanceClose_op h
    exact buildInv_of_op (by simp [this, ho]) (by simp [this, ho])
  · have := advanceSetAddr_op h
    exact buildInv_of_op (by simp [this, ho]) (by simp [this, ho])
  · unfold advanceRdReg at h
    split at h <;> cases h
    · exact sessionCheck_buildInv
    · exact buildClear_buildInv (.inl ho)
    · exact sendBuffer_buildInv _ (.inl ho) ‹_› hi
    · exact buildInv_of_idle (validate_seq true s)
  · unfold advanceWrReg at h
    split at h <;> cases h
    · exact sessionCheck_buildInv
    · exact buildClear_buildInv (.inr ho)
    · exact sendBuffer_buildInv _ (.inr ho) ‹_› hi
    · exact buildInv_of_idle (validate_seq false s)

/-- A step of a poll touches neither CB nor what the plan of CB is read off. -/
theorem execPoll_frame {n : Nat} (h : execPoll n s = .next t) :
    ∃ c e p v r b, t = { s with pollcnt := c, expect := e, pollAt := p, hist := v, rxbuf := r, bridge := b } := by
  obtain ⟨-, rfl⟩ | ⟨-, rfl⟩ | ⟨-, rfl⟩ | ⟨m, -, rfl⟩ := execPoll_cases h
  · exact ⟨_, _, _, _, _, _, rfl⟩
  · obtain ⟨-, -, h⟩ | ⟨-, -, h⟩ | ⟨-, h⟩ := pollSample_cases n s <;> rw [h] <;> exact ⟨_, _, _, _, _, _, rfl⟩
  · exact ⟨_, _, _, _, _, _, rfl⟩
  · exact ⟨_, _, _, _, _, _, rfl⟩

/-- After the poll of a transaction CB is still the burst it sent; OPEN's polls ask nothing of CB. -/
theorem afterPoll_buildInv (hp : pollsHere s = true) (hi : BuildInv s) : BuildInv (afterPoll s) := by
  unfold pollsHere at hp
  split at hp <;> rename_i ho hq
  case h_4 =>
    simp only [afterPoll, hq]
    exact buildInv_of_some (by simp only [builtSoFar, moveTo_op, moveTo_seq, ho]; rfl)
      (hi.cb_eq (by simp only [builtSoFar, ho, hq]; rfl)) (by simp)
  case h_5 =>
    simp only [afterPoll, hq]
    exact buildInv_of_some (by simp only [builtSoFar, moveTo_op, moveTo_seq, ho]; rfl)
      (hi.cb_eq (by simp only [builtSoFar, ho, hq]; rfl)) (by simp)
  case h_6 => cases hp
  all_goals
    simp only [afterPoll, hq]
    exact buildInv_of_op (by simp [ho]) (by simp [ho])

theorem poll_buildInv {n : Nat} (c : Bool) (hp : pollsHere s = true) (hi : BuildInv s) (h : execPoll n s = .next t) :
    BuildInv (if c then afterPoll t else t) := by
  obtain ⟨_, _, _, _, _, _, rfl⟩ := execPoll_frame h
  cases c
  · exact hi
  · exact afterPoll_buildInv hp hi

theorem controllerTurn_buildInv (hb : s.busy = true) (hi : BuildInv s) (h : controllerTurn s = .next t) :
    BuildInv t := by
  obtain ⟨hp, u, hu, rfl⟩ | ⟨-, p, i, u, hq, hx, hu, rfl⟩ | ⟨-, -, u, hu, rfl⟩ := controllerTurn_busy_cases hb h
  · exact poll_buildInv (s := s) _ hp hi hu
  · exact primitive_buildInv hq hx hi hu
  · rw [exec_inProgress hb] at hu
    exact advance_buildInv (t := u) hi hu

theorem controllerTurn_idle_buildInv (hb : s.busy = false) (hi : BuildInv s) (h : controllerTurn s = .next t) :
    BuildInv t := by
  obtain ⟨-, rfl⟩ | ⟨w, e, -, -, rfl⟩ | ⟨w, i, u, -, hd, hu, rfl⟩ := controllerTurn_idle_cases hb h
  · exact hi
  · exact buildInv_of_idle rfl
  · obtain ⟨o, v, hx⟩ := exec_hostOperation_idle (decodeHost_level hd) hb
    obtain rfl : accept o v s = u := by simpa [hx] using hu
    exact buildInv_of_none (by cases o <;> rfl) (by cases o <;> simp [firstState])

/-- Every step keeps CB as planned: only the controller writes CB and the registers the plan is read off, and a reset
leaves SEQ idle. -/
theorem step_buildInv (hi : BuildInv s) (h : step s = .next t) : BuildInv t := by
  cases ht : s.turn with
  | controller =>
    rw [step_controller ht] at h
    cases hb : s.busy
    · exact controllerTurn_idle_buildInv hb hi h
    · exact controllerTurn_buildInv hb hi h
  | bridge =>
    rw [step_bridge ht] at h
    obtain ⟨b, e, n, d, rfl⟩ := bridgeTurn_frame h
    exact hi
  | env =>
    obtain rfl : applyEvent (nextEvent s) (takeEvent s) = t := by simpa [step_env ht] using h
    obtain he | ⟨b, n, d, q, w, he⟩ := envTurn_frame (nextEvent s) s <;> rw [he]
    · exact buildInv_of_idle rfl
    · exact hi

/-! ## Every burst is a disciplined stream -/

/-- The burst of a position is one of OPEN's fixed ones or, CB being as planned, that of the transaction. -/
theorem burstAt_disciplined {bs : List Byte} (hi : BuildInv s) (h : burstAt s = some bs) : disciplined bs = true := by
  unfold burstAt at h
  split at h <;> cases h
  case h_1 => decide
  case h_2 => decide
  case h_3 => decide
  case h_4 => exact (stretch_divBurst s.div).decodes.1
  case h_5 => decide
  case h_6 ho hq =>
    rw [hi.cb_eq (by simp only [builtSoFar, ho, hq]; rfl)]
    exact (stretch_rdRegBurst ..).decodes.1
  case h_7 ho hq =>
    rw [hi.cb_eq (by simp only [builtSoFar, ho, hq]; rfl)]
    exact (stretch_wrRegBurst ..).decodes.1

theorem step_txh_disciplined (hi : BuildInv s) (h : step s = .next t) :
    t.txh = s.txh ∨ ∃ bs, t.txh = s.txh ++ [bs] ∧ disciplined bs = true := by
  obtain hs | ⟨bs, he, hs⟩ := step_txh h
  · exact .inl hs
  · obtain ⟨-, -, hb⟩ := eventAt_eq_txWrite he
    exact .inr ⟨bs, hs, burstAt_disciplined hi hb⟩

end

/-- Settles O29: a burst is added only at a sending position (`step_txh`), CB is as planned there (`step_buildInv`), and
the planned bursts are stretches of emittable commands that leave no byte write open. -/
theorem burstsAreDisciplinedStreams : Obligations.BurstsAreDisciplinedStreams := by
  refine ⟨?step, ?kept, ?meaning, ?write, ?read⟩
  case step => exact fun s t => step_txh_disciplined
  case kept =>
    rintro s t ⟨hi, hd⟩ h
    refine ⟨step_buildInv hi h, ?_⟩
    obtain hs | ⟨bs, hs, hb⟩ := step_txh_disciplined hi h <;> rw [hs]
    · exact hd
    · simpa [or_imp, forall_and, hb] using hd
  case meaning => exact fun bs => disciplined_iff.1
  case write => exact fun c a r v => (stretch_wrRegBurst c a r v).decodes
  case read => exact fun c a r n => (stretch_rdRegBurst c a r n).decodes

end Sys2Proof.Machine
end

section
/-! Host words by their fields: what the fields of a laid-out word are, and that the decoder reads an encoded host
operation back. -/

namespace Sys2Proof

theorem toNat_hostWordOf (o : BitVec 4) (c r a : Byte) :
    (hostWordOf o c r a).toNat = o.toNat * 2 ^ 28 + c.toNat * 2 ^ 16 + r.toNat * 2 ^ 8 + a.toNat := by
  have h : ((o ++ 0#4 ++ c ++ r ++ a : BitVec (4 + 4 + 8 + 8 + 8))).toNat =
      o.toNat * 2 ^ 28 + c.toNat * 2 ^ 16 + r.toNat * 2 ^ 8 + a.toNat := by
    simp only [BitVec.toNat_append, Nat.shiftLeft_eq_mul_pow, Nat.mul_comm _ (2 ^ _), BitVec.isLt,
      ← Nat.two_pow_add_eq_or_of_lt]
    simp
    omega
  exact h

section
variable (o : BitVec 4) (c r a : Byte)

@[simp] theorem hostOpc_hostWordOf : hostOpc (hostWordOf o c r a) = o := by
  refine BitVec.eq_of_toNat_eq ?_
  simp [hostOpc, toNat_hostWordOf, Nat.shiftRight_eq_div_pow]
  omega

@[simp] theorem hostCnt_hostWordOf : hostCnt (hostWordOf o c r a) = c := by
  refine BitVec.eq_of_toNat_eq ?_
  simp [hostCnt, toNat_hostWordOf, Nat.shiftRight_eq_div_pow]
  omega

@[simp] theorem hostReg_hostWordOf : hostReg (hostWordOf o c r a) = r := by
  refine BitVec.eq_of_toNat_eq ?_
  simp [hostReg, toNat_hostWordOf, Nat.shiftRight_eq_div_pow]
  omega

@[simp] theorem hostArg_hostWordOf : hostArg (hostWordOf o c r a) = a := by
  refine BitVec.eq_of_toNat_eq ?_
  simp [hostArg, toNat_hostWordOf]
  omega

@[simp] theorem hostAddr_hostWordOf (d : BitVec 7) : hostAddr (hostWordOf o c r (d.setWidth 8)) = d := by
  refine BitVec.eq_of_toNat_eq ?_
  simp [hostAddr, toNat_hostWordOf]
  omega

end

section
variable {o o' : BitVec 4} {c r a c' r' a' : Byte}

theorem hostWordOf_inj :
    hostWordOf o c r a = hostWordOf o' c' r' a' ↔ o = o' ∧ c = c' ∧ r = r' ∧ a = a' := by
  constructor
  · intro h
    exact ⟨by simpa using congrArg hostOpc h, by simpa using congrArg hostCnt h, by simpa using congrArg hostReg h,
      by simpa using congrArg hostArg h⟩
  · rintro ⟨rfl, rfl, rfl, rfl⟩
    rfl

/-- A mask works field by field; the reserved bits are 0 whatever it holds there. -/
theorem hostWordOf_and (mo ms : BitVec 4) (mc mr ma : Byte) :
    hostWordOf o c r a &&& (mo ++ ms ++ mc ++ mr ++ ma) = hostWordOf (o &&& mo) (c &&& mc) (r &&& mr) (a &&& ma) := by
  show (o ++ 0#4 ++ c ++ r ++ a &&& (mo ++ ms ++ mc ++ mr ++ ma) : BitVec (4 + 4 + 8 + 8 + 8)) =
    (o &&& mo) ++ 0#4 ++ (c &&& mc) ++ (r &&& mr) ++ (a &&& ma)
  simp only [BitVec.and_append, BitVec.zero_and]

/-- The row test of R94 on a word laid out by its fields. -/
theorem hostWordOf_selects (p mo ms : BitVec 4) (mc mr ma : Byte) :
    hostWordOf o c r a &&& (mo ++ ms ++ mc ++ mr ++ ma) = hostWordOf p 0#8 0#8 0#8 ↔
      o &&& mo = p ∧ c &&& mc = 0#8 ∧ r &&& mr = 0#8 ∧ a &&& ma = 0#8 := by
  rw [hostWordOf_and, hostWordOf_inj]

end

/-- The decoder by the fields of the word (R94). -/
theorem decodeHost_hostWordOf (o : BitVec 4) (c r a : Byte) :
    decodeHost (hostWordOf o c r a) =
      if o = 0x1#4 ∧ c = 0#8 ∧ r = 0#8 ∧ a &&& 0x80#8 = 0#8 then
        .ok (.openSession (hostAddr (hostWordOf o c r a)))
      else if o = 0x2#4 ∧ c = 0#8 ∧ r = 0#8 ∧ a = 0#8 then .ok .closeSession
      else if o = 0x3#4 ∧ c = 0#8 ∧ r = 0#8 ∧ a &&& 0x80#8 = 0#8 then
        .ok (.setAddr (hostAddr (hostWordOf o c r a)))
      else if o = 0x4#4 ∧ a = 0#8 then .ok (.rdReg r c)
      else if o = 0x5#4 ∧ c = 0#8 then .ok (.wrReg r a)
      else .error (hostRejectOf (hostWordOf o c r a)) := by
  have h1 : hostWordOf o c r a &&& 0xFFFFFF80#32 = 0x10000000#32 ↔ _ :=
    hostWordOf_selects 0x1#4 0xF#4 0xF#4 0xFF#8 0xFF#8 0x80#8
  have h2 : hostWordOf o c r a &&& 0xFFFFFFFF#32 = 0x20000000#32 ↔ _ :=
    hostWordOf_selects 0x2#4 0xF#4 0xF#4 0xFF#8 0xFF#8 0xFF#8
  have h3 : hostWordOf o c r a &&& 0xFFFFFF80#32 = 0x30000000#32 ↔ _ :=
    hostWordOf_selects 0x3#4 0xF#4 0xF#4 0xFF#8 0xFF#8 0x80#8
  have h4 : hostWordOf o c r a &&& 0xFF0000FF#32 = 0x40000000#32 ↔ _ :=
    hostWordOf_selects 0x4#4 0xF#4 0xF#4 0x00#8 0x00#8 0xFF#8
  have h5 : hostWordOf o c r a &&& 0xFFFF0000#32 = 0x50000000#32 ↔ _ :=
    hostWordOf_selects 0x5#4 0xF#4 0xF#4 0xFF#8 0x00#8 0x00#8
  have ones4 : ∀ x : BitVec 4, x &&& 0xF#4 = x := fun _ => BitVec.and_allOnes
  have ones8 : ∀ x : Byte, x &&& 0xFF#8 = x := fun _ => BitVec.and_allOnes
  simp only [decodeHost, h1, h2, h3, h4, h5, ones4, ones8, BitVec.and_zero, true_and, and_true, hostReg_hostWordOf,
    hostCnt_hostWordOf, hostArg_hostWordOf]

/-- The decoder reads an encoded host operation back (R92, R94). -/
theorem decodeHost_encodeHost {i : Instr} {w : HostWord} (h : encodeHost i = some w) : decodeHost w = .ok i := by
  have high : ∀ d : BitVec 7, d.setWidth 8 &&& 0x80#8 = 0#8 := by decide
  cases i <;> simp only [encodeHost, reduceCtorEq, Option.some.injEq] at h <;> subst h <;>
    rw [decodeHost_hostWordOf] <;> simp [high]

end Sys2Proof
end

section
/-! Runs of whole operations in a prompt environment: a run is put together from rounds, each one step of the controller
and the environment's answer to it. -/

namespace Sys2Proof.Machine

/-! ## Runs -/

theorem runSteps_of_step {k : Nat} {s t : State} (h : step s = .next t) : runSteps (k + 1) s = runSteps k t := by
  rw [runSteps, h]

/-- Runs are put together end to end. -/
theorem runSteps_append {m n : Nat} {s t u : State} (h : runSteps m s = .next t) (h' : runSteps n t = .next u) :
    runSteps (m + n) s = .next u := by
  induction m generalizing s with
  | zero => cases h; rwa [Nat.zero_add]
  | succ m ih =>
    rw [runSteps] at h
    cases hs : step s with
    | next v =>
      rw [hs] at h
      rw [Nat.add_right_comm, runSteps_of_step hs]
      exact ih h
    | fault r => simp [hs] at h
    | refused r => simp [hs] at h

/-! ## One step of a busy controller -/

section
variable {s u : State}

theorem fetchBusy_of_operation (hp : pollsHere s = false) (hq : ∀ p, s.seq = .tBuild p → primitiveAt s p = none) :
    fetchBusy s = .operation (inProgress s) := by
  rw [fetchBusy, hp, if_neg Bool.false_ne_true]
  split
  · rw [hq _ ‹_›]
  · rfl

/-- A position that neither polls nor runs a primitive runs its action. -/
theorem step_of_advance (ht : s.turn = .controller) (hb : s.busy = true) (hp : pollsHere s = false)
    (hq : ∀ p, s.seq = .tBuild p → primitiveAt s p = none) (h : advance s = .next u) :
    step s = .next (endTurn u) := by
  rw [step_controller ht, controllerTurn, fetch, hb, if_pos rfl, fetchBusy_of_operation hp hq]
  simp only [exec_inProgress hb, h, mapNext_next]

/-- A position that polls runs one step of the poll. -/
theorem step_of_poll (ht : s.turn = .controller) (hb : s.busy = true) (hp : pollsHere s = true)
    (h : execPoll s.expect s = .next u) : step s = .next (endTurn (if pollEnds s then afterPoll u else u)) := by
  rw [step_controller ht, controllerTurn, fetch, hb, if_pos rfl, fetchBusy, hp, if_pos rfl]
  simp only [exec, h, mapNext_next]

/-- A host operation on an idle block is accepted as the operation of its word's OPC (R93, R94). -/
theorem exec_of_idle {i : Instr} {w : HostWord} {o : HostOp} (hb : s.busy = false) (hw : encodeHost i = some w)
    (ho : hostOpc w = o.opc) : exec i s = .next (accept o w s) := by
  cases i <;> simp only [encodeHost, reduceCtorEq, Option.some.injEq] at hw <;> subst hw <;>
    rw [hostOpc_hostWordOf] at ho <;> cases o <;> simp [HostOp.opc] at ho <;> exact hostOperation_of_idle hb

/-- An idle controller accepts the encoded host operation at its port. -/
theorem step_of_accept {i : Instr} {w : HostWord} {o : HostOp} (ht : s.turn = .controller) (hb : s.busy = false)
    (hw : encodeHost i = some w) (hp : s.port = some w) (ho : hostOpc w = o.opc) :
    step s = .next (endTurn (takeWord (accept o w s))) := by
  rw [step_controller ht, controllerTurn, fetch, hb, if_neg Bool.false_ne_true, fetchIdle, hp]
  simp only [decodeHost_encodeHost hw, exec_of_idle hb hw ho, mapNext_next]

end

/-! ## Rounds -/

/-- `s` at the controller's turn, with the operation `o` in progress at `q`, the environment's next events being `es`. -/
def busyAt (o : HostOp) (q : Seq) (es : List EnvEvent) (s : State) : State :=
  { s with turn := .controller, busy := true, op := o, seq := q, inputs := { s.inputs with events := es } }

/-- What acceptance of the word `w` loads, and the port it empties (R91, R93). -/
def latched (w : HostWord) (s : State) : State :=
  { s with aAddr := hostAddr w, aReg := hostReg w, aVal := hostArg w, aCnt := hostCnt w, port := none }

/-- What a poll that finds the bytes it expects leaves: two equal samples, and the whole queue in RXBUF (R190). -/
def polled (s : State) : State :=
  { s with
    pollcnt := 0#20
    pollAt := .idle
    rxbuf := s.bridge.rxq
    bridge := { s.bridge with rxq := [] }
    hist := s.hist ++ [.rxCount s.bridge.rxq.length, .rxCount s.bridge.rxq.length, .rxRead s.bridge.rxq] }

section
variable {o : HostOp} {q : Seq} {es : List EnvEvent} {s : State}

/-- Acceptance, and the environment yields. -/
theorem accept_round {i : Instr} (ht : s.turn = .controller) (hb : s.busy = false)
    {w : HostWord} (hw : encodeHost i = some w) (hp : s.port = some w) (ho : hostOpc w = o.opc)
    (he : s.inputs.events = .yield :: es) :
    runSteps 2 s = .next (busyAt o (firstState o) es (latched w s)) := by
  have hn : step (endTurn (takeWord (accept o w s))) = .next (busyAt o (firstState o) es (latched w s)) := by
    rw [step_env rfl]
    simp [nextEvent, takeEvent, he, applyEvent]
    rfl
  rw [runSteps_of_step (step_of_accept ht hb hw hp ho), runSteps_of_step hn, runSteps]

section
variable (hp : pollsHere (busyAt o q es s) = true)
include hp

theorem pollStart_round (ha : s.pollAt = .idle) :
    runSteps 2 (busyAt o q (.yield :: es) s) = .next (busyAt o q es (pollStart s.expect s)) := by
  have h := step_of_poll (s := busyAt o q (.yield :: es) s) rfl rfl hp (execPoll_idle ha)
  rw [runSteps_of_step h]
  simp only [pollEnds, busyAt, ha]
  rfl

theorem pollSample_round (ha : s.pollAt = .sample) (hc : s.pollcnt = 0#20) (hn : s.bridge.rxq.length = s.expect) :
    runSteps 2 (busyAt o q (.yield :: es) s) = .next (busyAt o q es { sampleCount s with pollAt := .count }) := by
  have hm := pollSample_match (s := busyAt o q (.yield :: es) s) (by simp [busyAt, hc]) hn
  have hx := execPoll_sample (n := s.expect) (s := busyAt o q (.yield :: es) s) ha
  rw [hm] at hx
  have h := step_of_poll (s := busyAt o q (.yield :: es) s) rfl rfl hp hx
  rw [runSteps_of_step h]
  simp only [pollEnds, busyAt, ha]
  rfl

theorem pollCount_round (ha : s.pollAt = .count) :
    runSteps 2 (busyAt o q (.yield :: es) s) = .next (busyAt o q es (pollCount s)) := by
  have h := step_of_poll (s := busyAt o q (.yield :: es) s) rfl rfl hp (execPoll_count ha)
  rw [runSteps_of_step h]
  simp only [pollEnds, busyAt, ha]
  rfl

theorem pollRetrieve_round {q' : Seq} {m : Nat} (hq : ∀ t, t.seq = q → afterPoll t = moveTo q' t)
    (ha : s.pollAt = .retrieve m) :
    runSteps 2 (busyAt o q (.yield :: es) s) = .next (busyAt o q' es (pollRetrieve m s)) := by
  have h := step_of_poll (s := busyAt o q (.yield :: es) s) rfl rfl hp (execPoll_retrieve ha)
  rw [runSteps_of_step h, hq _ rfl]
  simp only [pollEnds, busyAt, ha]
  rfl

/-- A poll that finds exactly the bytes it expects takes four rounds. -/
theorem poll_rounds {q' : Seq} (hq : ∀ t, t.seq = q → afterPoll t = moveTo q' t) (ha : s.pollAt = .idle)
    (hn : s.bridge.rxq.length = s.expect) :
    runSteps 8 (busyAt o q (.yield :: .yield :: .yield :: .yield :: es) s) = .next (busyAt o q' es (polled s)) := by
  have h1 := pollStart_round (es := .yield :: .yield :: .yield :: es) hp ha
  have h2 := pollSample_round (es := .yield :: .yield :: es) (s := pollStart s.expect s) hp rfl rfl hn
  have h3 := pollCount_round (es := .yield :: es) (s := { sampleCount (pollStart s.expect s) with pollAt := .count })
    hp rfl
  have h4 := pollRetrieve_round (es := es)
    (s := pollCount { sampleCount (pollStart s.expect s) with pollAt := .count }) hp hq rfl
  have h := runSteps_append h1 (runSteps_append h2 (runSteps_append h3 h4))
  rw [h]
  simp [polled, busyAt, pollRetrieve, pollCount, sampleCount, logEvent, pollStart, rxRead, rxCount]

end

end

end Sys2Proof.Machine
end

section
/-! OPEN, run in a prompt environment. -/

namespace Sys2Proof.Machine

/-! ## Rounds of an action -/

section
variable {o : HostOp} {q q' : Seq} {es : List EnvEvent} {s t u : State}

/-- An action that stays in the operation, and the environment yields. -/
theorem action_round (hp : pollsHere (busyAt o q (.yield :: es) s) = false)
    (hq : ∀ p, q = .tBuild p → primitiveAt (busyAt o q (.yield :: es) s) p = none)
    (h : advance (busyAt o q (.yield :: es) s) = .next (busyAt o q' (.yield :: es) t)) :
    runSteps 2 (busyAt o q (.yield :: es) s) = .next (busyAt o q' es t) := by
  rw [runSteps_of_step (step_of_advance rfl rfl hp hq h)]
  rfl

/-- The last action of an operation. -/
theorem action_last (hp : pollsHere (busyAt o q es s) = false)
    (hq : ∀ p, q = .tBuild p → primitiveAt (busyAt o q es s) p = none) (h : advance (busyAt o q es s) = .next u) :
    runSteps 1 (busyAt o q es s) = .next (endTurn u) := by
  rw [runSteps_of_step (step_of_advance rfl rfl hp hq h), runSteps]

end

/-! ## The stages of OPEN -/

section
variable {w : HostWord} {a : BitVec 7} {gs : List Bool} {es : List EnvEvent} {s : State}

/-- What a granted `Acquire` does to `s`, the replies `gs` being left (R133 step 2). -/
def granted (gs : List Bool) (s : State) : State :=
  holdBridge { ctrl (.acquire Config.deviceId) s with inputs := { s.inputs with grants := gs } }

/-- What OPEN has done to `s` once it has drained the queue (R133 step 4). -/
def drained (s : State) : State := polled { sampleCount s with expect := rxCount s }

/-- What OPEN has done to `s` once it has configured the bridge (R133 steps 5 to 7). -/
def configured (s : State) : State :=
  ctrl (bitModeEvent .clockedShift) (ctrl (bitModeEvent .neutral) (ctrl (.setTimeouts Config.rdToMs Config.wrToMs)
    (ctrl (.setUsb Config.usbIn Config.usbOut) (ctrl (.setLatency Config.latMs) s))))

/-- What a sentinel and its echo do to a bridge with nothing unrun or unflushed (R112, R226). -/
def echoed (x : Byte) (s : State) : State :=
  { s with
    hist := s.hist ++ [.txWrite [x]]
    expect := 2
    bridge := { s.bridge with rxq := s.bridge.rxq ++ [0xFA#8, x] } }

/-- What OPEN has done to `s` once it has sent its last three bursts (R133 steps 10 to 12). -/
def programmed (s : State) : State := txWrite loopBurst (txWrite (divBurst s.div) (txWrite clkBurst s))

theorem openCheck_closed (h : s.sess = .closed) : openCheck s = moveTo .oAcq s := by
  simp [openCheck, h]

theorem openAcquire_granted (h : acquireReply s = true) :
    openAcquire s = moveTo .oRst (holdBridge (takeGrant (ctrl (.acquire Config.deviceId) s))) := by
  simp [openAcquire, h]

theorem openCheck_round (hs : s.sess = .closed) :
    runSteps 2 (busyAt .openOp .oCheck (.yield :: es) s) = .next (busyAt .openOp .oAcq es s) := by
  refine action_round rfl nofun (congrArg Host.Outcome.next ?_)
  rw [openCheck_closed (by exact hs)]
  rfl

theorem openAcquire_round (hg : s.inputs.grants = true :: gs) :
    runSteps 2 (busyAt .openOp .oAcq (.yield :: es) s) =
      .next (busyAt .openOp .oRst es (granted gs s)) := by
  have hg' : (busyAt .openOp .oAcq (.yield :: es) s).inputs.grants = true :: gs := hg
  refine action_round rfl nofun (congrArg Host.Outcome.next ?_)
  rw [openAcquire_granted (acquireReply_decided hg'), takeGrant_decided (by exact hg')]
  rfl

/-- From the idle block to the acquired and reset bridge: four rounds. -/
theorem acquire_rounds (ht : s.turn = .controller) (hb : s.busy = false) (hs : s.sess = .closed)
    (hw : encodeHost (.openSession a) = some w) (hp : s.port = some w) (hg : s.inputs.grants = true :: gs)
    (he : s.inputs.events = .yield :: .yield :: .yield :: .yield :: es) :
    runSteps 8 s = .next (busyAt .openOp .oDrain es (ctrl .reset (granted gs (latched w s)))) := by
  have ho : hostOpc w = HostOp.openOp.opc := by cases hw; exact hostOpc_hostWordOf ..
  have h1 := accept_round ht hb hw hp ho he
  have h2 := openCheck_round (es := .yield :: .yield :: es) (s := latched w s) hs
  have h3 := openAcquire_round (es := .yield :: es) (s := latched w s) hg
  have h4 : ∀ u, runSteps 2 (busyAt .openOp .oRst (.yield :: es) u) = .next (busyAt .openOp .oDrain es (ctrl .reset u)) :=
    fun _ => action_round rfl nofun rfl
  exact runSteps_append h1 (runSteps_append h2 (runSteps_append h3 (h4 _)))

/-- The drain: whatever is queued is taken, in five rounds. -/
theorem drain_rounds (ha : s.pollAt = .idle) :
    runSteps 10 (busyAt .openOp .oDrain (.yield :: .yield :: .yield :: .yield :: .yield :: es) s) =
      .next (busyAt .openOp .oCfgLatency es (drained s)) := by
  have h1 : runSteps 2 (busyAt .openOp .oDrain (.yield :: .yield :: .yield :: .yield :: .yield :: es) s) = _ :=
    action_round (q' := .oDrainPoll) (t := { sampleCount s with expect := rxCount s }) rfl nofun rfl
  have h2 := poll_rounds (o := .openOp) (q := .oDrainPoll) (q' := .oCfgLatency) (es := es)
    (s := { sampleCount s with expect := rxCount s }) rfl (fun t h => by simp [afterPoll, h]) ha rfl
  exact runSteps_append h1 h2

/-- The configuration: five control events, in five rounds. -/
theorem configure_rounds :
    runSteps 10 (busyAt .openOp .oCfgLatency (.yield :: .yield :: .yield :: .yield :: .yield :: es) s) =
      .next (busyAt .openOp .oSync1Tx es (configured s)) := by
  have latency : ∀ es u, runSteps 2 (busyAt .openOp .oCfgLatency (.yield :: es) u) =
      .next (busyAt .openOp .oCfgUsb es (ctrl (.setLatency Config.latMs) u)) :=
    fun _ _ => action_round rfl nofun rfl
  have usb : ∀ es u, runSteps 2 (busyAt .openOp .oCfgUsb (.yield :: es) u) =
      .next (busyAt .openOp .oCfgTimeouts es (ctrl (.setUsb Config.usbIn Config.usbOut) u)) :=
    fun _ _ => action_round rfl nofun rfl
  have timeouts : ∀ es u, runSteps 2 (busyAt .openOp .oCfgTimeouts (.yield :: es) u) =
      .next (busyAt .openOp .oModeReset es (ctrl (.setTimeouts Config.rdToMs Config.wrToMs) u)) :=
    fun _ _ => action_round rfl nofun rfl
  have neutral : ∀ es u, runSteps 2 (busyAt .openOp .oModeReset (.yield :: es) u) =
      .next (busyAt .openOp .oModeShift es (ctrl (bitModeEvent .neutral) u)) :=
    fun _ _ => action_round rfl nofun rfl
  have shift : ∀ es u, runSteps 2 (busyAt .openOp .oModeShift (.yield :: es) u) =
      .next (busyAt .openOp .oSync1Tx es (ctrl (bitModeEvent .clockedShift) u)) :=
    fun _ _ => action_round rfl nofun rfl
  exact runSteps_append (latency _ s) (runSteps_append (usb _ _) (runSteps_append (timeouts _ _)
    (runSteps_append (neutral _ _) (shift es _))))

/-- The last three bursts and the result. -/
theorem program_rounds :
    runSteps 7 (busyAt .openOp .oClk (.yield :: .yield :: .yield :: es) s) =
      .next (endTurn (openDone s.aAddr (busyAt .openOp .oDone es (programmed s)))) := by
  have clk : ∀ es u, runSteps 2 (busyAt .openOp .oClk (.yield :: es) u) =
      .next (busyAt .openOp .oDiv es (txWrite clkBurst u)) := fun _ _ => action_round rfl nofun rfl
  have div : ∀ es u, runSteps 2 (busyAt .openOp .oDiv (.yield :: es) u) =
      .next (busyAt .openOp .oLb es (txWrite (divBurst u.div) u)) := fun _ _ => action_round rfl nofun rfl
  have loop : ∀ es u, runSteps 2 (busyAt .openOp .oLb (.yield :: es) u) =
      .next (busyAt .openOp .oDone es (txWrite loopBurst u)) := fun _ _ => action_round rfl nofun rfl
  have last : ∀ u, runSteps 1 (busyAt .openOp .oDone es u) =
      .next (endTurn (openDone u.aAddr (busyAt .openOp .oDone es u))) := fun _ => action_last rfl nofun rfl
  exact runSteps_append (clk _ s) (runSteps_append (div _ _) (runSteps_append (loop es _) (last (programmed s))))

end

/-! ## The handshake -/

/-- The SEQ positions of a sentinel `x`, run by the bridge as the command `i`: its send, its poll, the comparison with its
echo, and the position after it (R133 steps 8 and 9). -/
structure Handshake (x : Byte) (i : Instr) (send poll compare after : Seq) : Prop where
  sends : ∀ es s, step (busyAt .openOp send es s) =
    .next (endTurn (busyAt .openOp poll es { txWrite [x] s with expect := 2 }))
  decodes : decodeBridge [x] = .ok (i, [])
  executes : ∀ s, exec i s = .next (sentinel x s)
  polls : ∀ es s, pollsHere (busyAt .openOp poll es s) = true
  compares : ∀ t, t.seq = poll → afterPoll t = moveTo compare t
  passes : ∀ es s, s.rxbuf = [0xFA#8, x] →
    runSteps 2 (busyAt .openOp compare (.yield :: es) s) = .next (busyAt .openOp after es s)

theorem openCompare_pass {echo : List Byte} {q : Seq} {s : State} (h : s.rxbuf = echo) :
    openCompare echo q s = moveTo q s := by
  simp [openCompare, h]

theorem handshake_sync1 : Handshake 0xAA#8 .sync1 .oSync1Tx .oSync1Poll .oSync1Cmp .oSync2Tx where
  sends _ _ := step_of_advance rfl rfl rfl nofun rfl
  decodes := rfl
  executes _ := rfl
  polls _ _ := rfl
  compares t h := by simp [afterPoll, h]
  passes _ s h := action_round rfl nofun
    (congrArg Host.Outcome.next (openCompare_pass (s := busyAt .openOp .oSync1Cmp _ s) h))

theorem handshake_sync2 : Handshake 0xAB#8 .sync2 .oSync2Tx .oSync2Poll .oSync2Cmp .oClk where
  sends _ _ := step_of_advance rfl rfl rfl nofun rfl
  decodes := rfl
  executes _ := rfl
  polls _ _ := rfl
  compares t h := by simp [afterPoll, h]
  passes _ s h := action_round rfl nofun
    (congrArg Host.Outcome.next (openCompare_pass (s := busyAt .openOp .oSync2Cmp _ s) h))

section
variable {x : Byte} {i : Instr} {send poll compare after : Seq} {es : List EnvEvent} {s : State}

/-- In the clocked-shift mode a sentinel queues its echo and draws nothing (R226). -/
theorem sentinel_clockedShift (h : s.bridge.settings.mode = .clockedShift) :
    sentinel x s = respond [0xFA#8, x] s := by
  simp [sentinel, echoOf, echoDraws, h, respond]

/-- The sentinel is sent, the bridge runs it, and its echo becomes visible. -/
theorem Handshake.send_run (h : Handshake x i send poll compare after) (hm : s.bridge.settings.mode = .clockedShift)
    (hc : s.bridge.cmdq = []) (hr : s.bridge.resp = []) :
    runSteps 5 (busyAt .openOp send (.run :: .flush :: .yield :: es) s) =
      .next (busyAt .openOp poll es (echoed x s)) := by
  rw [runSteps_of_step (h.sends _ s)]
  let b : State := { busyAt .openOp poll (.flush :: .yield :: es) { txWrite [x] s with expect := 2 } with turn := .bridge }
  have hrun : step (endTurn (busyAt .openOp poll (.run :: .flush :: .yield :: es) { txWrite [x] s with expect := 2 })) =
      .next b := rfl
  have hcmd : step b = .next (endTurn (takeCommand [] (respond [0xFA#8, x] b))) := by
    have hq : b.bridge.cmdq = [x] := by simp [b, busyAt, txWrite, hc]
    rw [step_bridge rfl, bridgeTurn, hq, h.decodes]
    simp only [h.executes, sentinel_clockedShift (s := b) hm, mapNext_next]
  rw [runSteps_of_step hrun, runSteps_of_step hcmd]
  simp [runSteps, step, stepTurn, envTurn, nextEvent, takeEvent, applyEvent, b, busyAt, endTurn, takeCommand, respond,
    flushResponses, txWrite, echoed, hc, hr]

/-- A sentinel that is echoed passes its comparison: eight events of the environment, fifteen steps. -/
theorem Handshake.rounds (h : Handshake x i send poll compare after) (hm : s.bridge.settings.mode = .clockedShift)
    (hc : s.bridge.cmdq = []) (hr : s.bridge.resp = []) (hx : s.bridge.rxq = []) (ha : s.pollAt = .idle) :
    runSteps 15 (busyAt .openOp send
        (.run :: .flush :: .yield :: .yield :: .yield :: .yield :: .yield :: .yield :: es) s) =
      .next (busyAt .openOp after es (polled (echoed x s))) := by
  have h1 := h.send_run (es := .yield :: .yield :: .yield :: .yield :: .yield :: es) hm hc hr
  have h2 := poll_rounds (es := .yield :: es) (s := echoed x s) (h.polls _ _) h.compares ha (by simp [echoed, hx])
  have h3 := h.passes es (polled (echoed x s)) (by simp [polled, echoed, hx])
  exact runSteps_append h1 (runSteps_append h2 h3)

end

/-! ## The whole of OPEN -/

/-- What OPEN has done to `s` before its handshake. -/
def prepared (w : HostWord) (gs : List Bool) (s : State) : State :=
  configured (drained (ctrl .reset (granted gs (latched w s))))

/-- What OPEN has done to `s` before its result. -/
def handshaken (w : HostWord) (gs : List Bool) (s : State) : State :=
  programmed (polled (echoed 0xAB#8 (polled (echoed 0xAA#8 (prepared w gs s)))))

/-- The environment's events in a handshake it answers promptly. -/
def handshakeEvents (es : List EnvEvent) : List EnvEvent :=
  .run :: .flush :: .yield :: .yield :: .yield :: .yield :: .yield :: .yield :: es

theorem open_run {a : BitVec 7} {w : HostWord} {gs : List Bool} {evs : List EnvEvent} {s : State}
    (ht : s.turn = .controller) (hb : s.busy = false) (hs : s.sess = .closed) (ha : s.pollAt = .idle)
    (hw : encodeHost (.openSession a) = some w) (hp : s.port = some w) (he : s.inputs.events = openScript ++ evs)
    (hg : s.inputs.grants = true :: gs) (hc : s.bridge.cmdq = []) (hr : s.bridge.resp = []) :
    runSteps 65 s = .next (endTurn (openDone (hostAddr w) (busyAt .openOp .oDone evs (handshaken w gs s)))) := by
  have h6 := program_rounds (es := evs) (s := polled (echoed 0xAB#8 (polled (echoed 0xAA#8 (prepared w gs s)))))
  have h5 := handshake_sync2.rounds (es := .yield :: .yield :: .yield :: evs)
    (s := polled (echoed 0xAA#8 (prepared w gs s))) rfl hc hr rfl rfl
  have h4 := handshake_sync1.rounds (es := handshakeEvents (.yield :: .yield :: .yield :: evs))
    (s := prepared w gs s) rfl hc hr rfl rfl
  have h3 := configure_rounds (es := handshakeEvents (handshakeEvents (.yield :: .yield :: .yield :: evs)))
    (s := drained (ctrl .reset (granted gs (latched w s))))
  have h2 := drain_rounds (s := ctrl .reset (granted gs (latched w s))) (es := .yield :: .yield :: .yield :: .yield ::
    .yield :: handshakeEvents (handshakeEvents (.yield :: .yield :: .yield :: evs))) ha
  have h1 := acquire_rounds (es := .yield :: .yield :: .yield :: .yield :: .yield :: .yield :: .yield :: .yield ::
    .yield :: .yield :: handshakeEvents (handshakeEvents (.yield :: .yield :: .yield :: evs))) ht hb hs hw hp hg he
  exact runSteps_append h1 (runSteps_append h2 (runSteps_append h3 (runSteps_append h4 (runSteps_append h5 h6))))

section
variable (w : HostWord) (gs : List Bool) (s : State)

/-- The events of OPEN up to its handshake (R133 steps 2 to 7). -/
theorem prepared_hist : (prepared w gs s).hist = s.hist ++
    ([.ctrl (.acquire Config.deviceId), .ctrl .reset,
      .rxCount s.bridge.rxq.length, .rxCount s.bridge.rxq.length, .rxCount s.bridge.rxq.length, .rxRead s.bridge.rxq,
      .ctrl (.setLatency Config.latMs), .ctrl (.setUsb Config.usbIn Config.usbOut),
      .ctrl (.setTimeouts Config.rdToMs Config.wrToMs),
      .ctrl (bitModeEvent .neutral), .ctrl (bitModeEvent .clockedShift)] : List Event) := by
  simp [prepared, configured, drained, polled, granted, latched, rxCount, bridgeAfterCtrl]

/-- What OPEN leaves as it found it up to its handshake, and the hold it has taken. -/
theorem prepared_frame :
    (prepared w gs s).cb = s.cb ∧ (prepared w gs s).div = s.div ∧ (prepared w gs s).port = none ∧
      (prepared w gs s).handle = true ∧ (prepared w gs s).bridge.held = true ∧ (prepared w gs s).bridge.rxq = [] := by
  simp [prepared, configured, drained, polled, granted, latched, bridgeAfterCtrl, bitModeEvent]

/-- The events of OPEN up to its result (R133 steps 2 to 12). -/
theorem handshaken_hist : (handshaken w gs s).hist = (prepared w gs s).hist ++
    ([.txWrite [0xAA#8], .rxCount 2, .rxCount 2, .rxRead [0xFA#8, 0xAA#8],
      .txWrite [0xAB#8], .rxCount 2, .rxCount 2, .rxRead [0xFA#8, 0xAB#8],
      .txWrite [0x8A#8, 0x97#8, 0x8C#8],
      .txWrite [0x80#8, 0x00#8, 0x00#8, 0x86#8, s.div.extractLsb' 0 8, s.div.extractLsb' 8 8],
      .txWrite [0x85#8]] : List Event) := by
  obtain ⟨-, hd, -, -, -, hx⟩ := prepared_frame w gs s
  simp [handshaken, programmed, polled, echoed, hd, hx, clkBurst, divBurst, loopBurst, Config.initDir, Config.initVal]

/-- What OPEN leaves as it found it up to its result, and the second echo in RXBUF. -/
theorem handshaken_frame :
    (handshaken w gs s).cb = s.cb ∧ (handshaken w gs s).div = s.div ∧ (handshaken w gs s).port = none ∧
      (handshaken w gs s).handle = true ∧ (handshaken w gs s).bridge.held = true ∧
      (handshaken w gs s).bridge.rxq = [] ∧ (handshaken w gs s).rxbuf = [0xFA#8, 0xAB#8] := by
  obtain ⟨hcb, hd, hp, hh, hb, hx⟩ := prepared_frame w gs s
  simp [handshaken, programmed, polled, echoed, hcb, hd, hp, hh, hb]

theorem openDone_hist {a : BitVec 7} (ho : s.op = .openOp) :
    (openDone a s).hist = s.hist ++ [.result 0x00000011#32 []] := by
  have hr : rspWord true .none 0x1#4 0#8 = 0x00000011#32 := by decide
  simp [openDone, ho, HostOp.opc, hr]

end

/-- Settles O18: the run is that of `open_run`; its last state is read field by field. -/
theorem openSucceedsWithPromptBridge : Obligations.OpenSucceedsWithPromptBridge := by
  intro a s evs gs ht hb hs ha hp he hg hc hr
  have hw : encodeHost (.openSession a) = some (hostWordOf 0x1#4 0x00#8 0x00#8 (a.setWidth 8)) := rfl
  have hrun := open_run ht hb hs ha hw (hp ▸ hw) he hg hc hr
  have hhist := handshaken_hist (hostWordOf 0x1#4 0x00#8 0x00#8 (a.setWidth 8)) gs s
  obtain ⟨hcb, hd, hport, hh, hheld, hq, hbuf⟩ :=
    handshaken_frame (hostWordOf 0x1#4 0x00#8 0x00#8 (a.setWidth 8)) gs s
  rw [prepared_hist, List.append_assoc] at hhist
  generalize handshaken _ gs s = u at hrun hhist hcb hd hport hh hheld hq hbuf
  refine ⟨_, hrun, rfl, hostAddr_hostWordOf .., hh, hheld, rfl, rfl, hport, ?hist, hbuf, hq, hcb, hd, rfl⟩
  case hist =>
    rw [endTurn_hist, openDone_hist (s := busyAt .openOp .oDone evs u) rfl]
    show u.hist ++ _ = _
    rw [hhist, List.append_assoc]
    rfl

end Sys2Proof.Machine
end

section
/-! WRREG and RDREG, run in a prompt environment. -/

namespace Sys2Proof.Machine

/-! ## Rounds of a build -/

section
variable {o : HostOp} {q q' : Seq} {es : List EnvEvent} {s t u : State} {p : BuildPos} {i : Instr}

/-- A build position runs its primitive and moves on. -/
theorem step_of_primitive (ht : s.turn = .controller) (hb : s.busy = true) (hq : s.seq = .tBuild p)
    (hi : primitiveAt s p = some i) (hx : exec i s = .next u) : step s = .next (endTurn (afterPrimitive u)) := by
  have hp : pollsHere s = false := by cases ho : s.op <;> simp [pollsHere, ho, hq]
  rw [step_controller ht, controllerTurn, fetch, hb, if_pos rfl, fetchBusy, hp, if_neg Bool.false_ne_true]
  simp only [hq, hi, hx, mapNext_next]

/-- A primitive of the build, and the environment yields. -/
theorem primitive_round (hi : primitiveAt (busyAt o (.tBuild p) (.yield :: es) s) p = some i)
    (hx : exec i (busyAt o (.tBuild p) (.yield :: es) s) = .next (busyAt o (.tBuild p) (.yield :: es) u))
    (ha : afterPrimitive (busyAt o (.tBuild p) (.yield :: es) u) = busyAt o q' (.yield :: es) t) :
    runSteps 2 (busyAt o (.tBuild p) (.yield :: es) s) = .next (busyAt o q' es t) := by
  rw [runSteps_of_step (step_of_primitive rfl rfl rfl hi hx), ha]
  rfl

end

/-! ## The stages of a transaction -/

section
variable {o : HostOp} {q : Seq} {i : Instr} {w : HostWord} {es : List EnvEvent} {resp : List Byte} {s : State}

/-- What the send and the response do to `s`: CB goes out whole, `m` bytes are expected, the bytes `resp` are queued (R172,
R66). -/
def answered (m : Nat) (resp : List Byte) (s : State) : State :=
  { s with
    hist := s.hist ++ [.txWrite s.cb]
    expect := m
    bridge := { s.bridge with cmdq := s.bridge.cmdq ++ s.cb, rxq := s.bridge.rxq ++ resp } }

theorem sessionCheck_opened (h : s.sess = .opened) : sessionCheck s = moveTo (.tBuild .clear) s := by
  simp [sessionCheck, h]

theorem sessionCheck_round (ho : o = .rdRegOp ∨ o = .wrRegOp) (hs : s.sess = .opened) :
    runSteps 2 (busyAt o .tCheck (.yield :: es) s) = .next (busyAt o (.tBuild .clear) es s) := by
  obtain rfl | rfl := ho <;> refine action_round rfl nofun (congrArg Host.Outcome.next ?_) <;>
    exact sessionCheck_opened hs

/-- The session check and the part of the build the two transactions share, in five rounds. -/
theorem address_rounds (ho : o = .rdRegOp ∧ q = .tBuild .start2 ∨ o = .wrRegOp ∧ q = .tBuild .wrVal)
    (hs : s.sess = .opened) :
    runSteps 10 (busyAt o .tCheck (.yield :: .yield :: .yield :: .yield :: .yield :: es) s) =
      .next (busyAt o q es { s with cb := addressPart s.cfg.nrepData s.addr s.aReg }) := by
  have check := sessionCheck_round (es := .yield :: .yield :: .yield :: .yield :: es) (ho.imp And.left And.left) hs
  have clear : runSteps 2 (busyAt o (.tBuild .clear) (.yield :: .yield :: .yield :: .yield :: es) s) =
      .next (busyAt o (.tBuild .start) (.yield :: .yield :: .yield :: es) (cbClear s)) := by
    obtain ⟨rfl, -⟩ | ⟨rfl, -⟩ := ho <;> exact action_round rfl (fun _ h => by cases h; rfl) rfl
  have start : runSteps 2 (busyAt o (.tBuild .start) (.yield :: .yield :: .yield :: es) (cbClear s)) =
      .next (busyAt o (.tBuild .wrAddrW) (.yield :: .yield :: es) { s with cb := startBytes }) := by
    obtain ⟨rfl, -⟩ | ⟨rfl, -⟩ := ho <;> exact primitive_round (u := { s with cb := startBytes }) rfl rfl rfl
  have addrW : runSteps 2 (busyAt o (.tBuild .wrAddrW) (.yield :: .yield :: es) { s with cb := startBytes }) =
      .next (busyAt o (.tBuild .wrRegAddr) (.yield :: es)
        { s with cb := startBytes ++ wrByteBytes s.cfg.nrepData (addrByte s.addr 0#1) }) := by
    obtain ⟨rfl, -⟩ | ⟨rfl, -⟩ := ho <;> exact primitive_round (u := { s with cb := _ }) rfl rfl rfl
  have regAddr : runSteps 2 (busyAt o (.tBuild .wrRegAddr) (.yield :: es)
        { s with cb := startBytes ++ wrByteBytes s.cfg.nrepData (addrByte s.addr 0#1) }) =
      .next (busyAt o q es { s with cb := addressPart s.cfg.nrepData s.addr s.aReg }) := by
    obtain ⟨rfl, rfl⟩ | ⟨rfl, rfl⟩ := ho <;> exact primitive_round (u := { s with cb := _ }) rfl rfl rfl
  exact runSteps_append check (runSteps_append clear (runSteps_append start (runSteps_append addrW regAddr)))

/-- The rest of WRREG's build, in two rounds. -/
theorem wrVal_rounds :
    runSteps 4 (busyAt .wrRegOp (.tBuild .wrVal) (.yield :: .yield :: es) s) =
      .next (busyAt .wrRegOp .tTx es { s with cb := s.cb ++ wrByteBytes s.cfg.nrepData s.aVal ++ stopBytes }) := by
  have value : runSteps 2 (busyAt .wrRegOp (.tBuild .wrVal) (.yield :: .yield :: es) s) =
      .next (busyAt .wrRegOp (.tBuild .stop) (.yield :: es) { s with cb := s.cb ++ wrByteBytes s.cfg.nrepData s.aVal }) :=
    primitive_round (u := { s with cb := _ }) rfl rfl rfl
  exact runSteps_append value (primitive_round (u := { s with cb := _ }) rfl rfl rfl)

/-- One read that is not the last. -/
theorem read_round (h : s.idx.toNat + 1 ≠ s.aCnt.toNat) :
    runSteps 2 (busyAt .rdRegOp (.tBuild .rdLoop) (.yield :: es) s) =
      .next (busyAt .rdRegOp (.tBuild .rdLoop) es
        { s with idx := s.idx + 1#8, cb := s.cb ++ rdByteBytes s.cfg.nrepData true }) := by
  have hw : wantAck s.idx s.aCnt = true := by simpa [wantAck] using h
  refine primitive_round (u := { s with cb := s.cb ++ rdByteBytes s.cfg.nrepData true })
    (congrArg (fun b => some (Instr.rdByte b)) hw) rfl ?_
  exact if_neg h

/-- The last read. -/
theorem read_last_round (h : s.idx.toNat + 1 = s.aCnt.toNat) :
    runSteps 2 (busyAt .rdRegOp (.tBuild .rdLoop) (.yield :: es) s) =
      .next (busyAt .rdRegOp (.tBuild .stop) es { s with cb := s.cb ++ rdByteBytes s.cfg.nrepData false }) := by
  have hw : wantAck s.idx s.aCnt = false := by simp [wantAck, h]
  refine primitive_round (u := { s with cb := s.cb ++ rdByteBytes s.cfg.nrepData false })
    (congrArg (fun b => some (Instr.rdByte b)) hw) rfl ?_
  exact if_pos h

/-- The read loop: one round for each byte still to be read, by induction on their number. -/
theorem readLoop_rounds (k : Nat) (h : s.idx.toNat + (k + 1) = s.aCnt.toNat) :
    ∃ j, runSteps (2 * (k + 1)) (busyAt .rdRegOp (.tBuild .rdLoop) (List.replicate (k + 1) .yield ++ es) s) =
      .next (busyAt .rdRegOp (.tBuild .stop) es
        { s with idx := j, cb := s.cb ++ readPlan s.cfg.nrepData (k + 1) }) := by
  induction k generalizing s with
  | zero => exact ⟨s.idx, read_last_round h⟩
  | succ k ih =>
    have hidx : (s.idx + 1#8).toNat = s.idx.toNat + 1 := by bv_omega
    have first := read_round (es := List.replicate (k + 1) .yield ++ es) (s := s) (by omega)
    obtain ⟨j, rest⟩ := ih (s := { s with idx := s.idx + 1#8, cb := s.cb ++ rdByteBytes s.cfg.nrepData true })
      (by simp only [hidx]; omega)
    refine ⟨j, ?_⟩
    have hrun := runSteps_append first rest
    rw [show 2 * (k + 1 + 1) = 2 + 2 * (k + 1) by ring, List.replicate_succ, List.cons_append, hrun]
    simp [readPlan_succ, repeatBytes_succ]

/-- The rest of RDREG's build: three rounds and one for each byte to read. -/
theorem start2_rounds {n : Nat} (hn : s.aCnt.toNat = n) :
    ∃ j, runSteps (6 + 2 * n)
        (busyAt .rdRegOp (.tBuild .start2) (.yield :: .yield :: (List.replicate n .yield ++ .yield :: es)) s) =
      .next (busyAt .rdRegOp .tTx es
        { s with
          idx := j
          cb := s.cb ++ startBytes ++ wrByteBytes s.cfg.nrepData (addrByte s.addr 1#1) ++ readPlan s.cfg.nrepData n ++
            stopBytes }) := by
  have start : ∀ es, runSteps 2 (busyAt .rdRegOp (.tBuild .start2) (.yield :: es) s) =
      .next (busyAt .rdRegOp (.tBuild .wrAddrR) es { s with cb := s.cb ++ startBytes }) :=
    fun _ => primitive_round (u := { s with cb := _ }) rfl rfl rfl
  have addrR : ∀ q es i, enterRead (busyAt .rdRegOp (.tBuild .wrAddrR) (.yield :: es)
        { s with cb := s.cb ++ startBytes ++ wrByteBytes s.cfg.nrepData (addrByte s.addr 1#1) }) =
        busyAt .rdRegOp q (.yield :: es)
          { s with idx := i, cb := s.cb ++ startBytes ++ wrByteBytes s.cfg.nrepData (addrByte s.addr 1#1) } →
      runSteps 2 (busyAt .rdRegOp (.tBuild .wrAddrR) (.yield :: es) { s with cb := s.cb ++ startBytes }) =
        .next (busyAt .rdRegOp q es
          { s with idx := i, cb := s.cb ++ startBytes ++ wrByteBytes s.cfg.nrepData (addrByte s.addr 1#1) }) :=
    fun _ _ _ h => primitive_round (u := { s with cb := _ }) rfl rfl h
  have stopped : ∀ u, runSteps 2 (busyAt .rdRegOp (.tBuild .stop) (.yield :: es) u) =
      .next (busyAt .rdRegOp .tTx es { u with cb := u.cb ++ stopBytes }) :=
    fun u => primitive_round (u := { u with cb := _ }) rfl rfl rfl
  cases n with
  | zero =>
    have hz : s.aCnt = 0x00#8 := BitVec.eq_of_toNat_eq hn
    refine ⟨0x00#8, ?_⟩
    have skip := addrR (.tBuild .stop) (.yield :: es) 0x00#8 (if_pos hz)
    simpa [readPlan] using runSteps_append (start _) (runSteps_append skip (stopped _))
  | succ k =>
    have hz : s.aCnt ≠ 0x00#8 := fun h => by simp [h] at hn
    have enter := addrR (.tBuild .rdLoop) (List.replicate (k + 1) .yield ++ .yield :: es) 0x00#8 (if_neg hz)
    obtain ⟨j, reads⟩ := readLoop_rounds (es := .yield :: es) (s := { s with
      idx := 0x00#8, cb := s.cb ++ startBytes ++ wrByteBytes s.cfg.nrepData (addrByte s.addr 1#1) }) k (by simp [hn])
    refine ⟨j, ?_⟩
    rw [show 6 + 2 * (k + 1) = 2 + (2 + (2 * (k + 1) + 2)) by ring]
    exact runSteps_append (start _) (runSteps_append enter (runSteps_append reads (stopped _)))

/-- An action that stays in the operation, and bytes arrive before the environment yields. -/
theorem action_arrive_round {q' : Seq} {t : State}
    (hp : pollsHere (busyAt o q (.arrive resp :: .yield :: es) s) = false)
    (hq : ∀ p, q = .tBuild p → primitiveAt (busyAt o q (.arrive resp :: .yield :: es) s) p = none)
    (h : advance (busyAt o q (.arrive resp :: .yield :: es) s) =
      .next (busyAt o q' (.arrive resp :: .yield :: es) t)) :
    runSteps 3 (busyAt o q (.arrive resp :: .yield :: es) s) = .next (busyAt o q' es (arriveBytes resp t)) := by
  rw [runSteps_of_step (step_of_advance rfl rfl hp hq h)]
  rfl

/-- The send, and the response is queued before the environment yields. -/
theorem send_rounds {m : Nat} (ho : o = .rdRegOp ∧ m = s.aCnt.toNat + 3 ∨ o = .wrRegOp ∧ m = 3) :
    runSteps 3 (busyAt o .tTx (.arrive resp :: .yield :: es) s) = .next (busyAt o .tPoll es (answered m resp s)) := by
  obtain ⟨rfl, rfl⟩ | ⟨rfl, rfl⟩ := ho <;>
    exact action_arrive_round (t := { txWrite s.cb s with expect := _ }) rfl nofun rfl

/-! ## The validation -/

/-- A retrieval of the expected length, 3 to 258 bytes, is usable under either policy (R31, R178). -/
theorem lengthCheck_expected {m : Nat} (p : ShortReadPolicy) (h3 : 3 ≤ m) (h258 : m ≤ 258) :
    lengthCheck p m m = .usable := by
  rw [lengthCheck, if_neg (fun h => h.1 rfl), if_neg (by omega)]

theorem validate_expected {isRead : Bool} (h : s.rxbuf.length = s.expect) (h3 : 3 ≤ s.rxbuf.length)
    (h258 : s.rxbuf.length ≤ 258) :
    validate isRead s = checkAcks (if isRead then s.rxbuf.drop 3 else []) s := by
  rw [validate, State.rxlen, ← h, lengthCheck_expected _ h3 h258]

/-- The event of the result a retrieval `resp` gives the operation `o`, `data` being what a success returns (R178). -/
def ackResult (o : HostOp) (resp data : List Byte) : Event :=
  if anyNak resp then .result (rspWord false .ack o.opc 0x00#8) []
  else .result (rspWord true .none o.opc (BitVec.ofNat 8 data.length)) data

/-- What the acknowledgement check leaves, whatever it finds. -/
theorem checkAcks_frame (data : List Byte) (s : State) :
    (checkAcks data s).busy = false ∧ (checkAcks data s).seq = .idle ∧ (checkAcks data s).sess = s.sess ∧
      (checkAcks data s).addr = s.addr ∧ (checkAcks data s).rxbuf = s.rxbuf ∧
      (checkAcks data s).pollcnt = s.pollcnt ∧ (checkAcks data s).inputs = s.inputs ∧
      (checkAcks data s).nak0 = nakBit s.rxbuf 0 ∧ (checkAcks data s).nak1 = nakBit s.rxbuf 1 ∧
      (checkAcks data s).nak2 = nakBit s.rxbuf 2 ∧
      (checkAcks data s).hist = s.hist ++ [ackResult s.op s.rxbuf data] := by
  unfold checkAcks ackResult
  split <;> simp

/-- The validation of a retrieval of the expected length, the last action of a transaction. -/
theorem validate_last {data : List Byte}
    (ho : o = .rdRegOp ∧ data = s.rxbuf.drop 3 ∨ o = .wrRegOp ∧ data = []) (h : s.rxbuf.length = s.expect)
    (h3 : 3 ≤ s.rxbuf.length) (h258 : s.rxbuf.length ≤ 258) :
    runSteps 1 (busyAt o .tValid es s) = .next (endTurn (checkAcks data (busyAt o .tValid es s))) := by
  obtain ⟨rfl, rfl⟩ | ⟨rfl, rfl⟩ := ho
  · exact action_last rfl nofun
      (congrArg Host.Outcome.next (validate_expected (isRead := true) (s := busyAt .rdRegOp .tValid es s) h h3 h258))
  · exact action_last rfl nofun
      (congrArg Host.Outcome.next (validate_expected (isRead := false) (s := busyAt .wrRegOp .tValid es s) h h3 h258))

/-- `t` is `s` after the operation `o` has sent the burst `burst`, polled for the response `resp`, and validated it, `data`
being what a success returns; the events `es` are still to come (R172, R173, R178, R190). -/
structure Completes (o : HostOp) (burst resp data : List Byte) (es : List EnvEvent) (s t : State) : Prop where
  busy : t.busy = false
  seq : t.seq = .idle
  sess : t.sess = s.sess
  addr : t.addr = s.addr
  rxbuf : t.rxbuf = resp
  pollcnt : t.pollcnt = 0#20
  events : t.inputs.events = es
  nak0 : t.nak0 = nakBit resp 0
  nak1 : t.nak1 = nakBit resp 1
  nak2 : t.nak2 = nakBit resp 2
  hist : t.hist = s.hist ++
    [.txWrite burst, .rxCount resp.length, .rxCount resp.length, .rxRead resp, ackResult o resp data]

/-- From the send to the result, when the response has the expected length: four polling rounds and the validation. -/
theorem response_run {m : Nat} {data : List Byte}
    (ho : o = .rdRegOp ∧ m = s.aCnt.toNat + 3 ∧ data = resp.drop 3 ∨ o = .wrRegOp ∧ m = 3 ∧ data = [])
    (ha : s.pollAt = .idle) (hx : s.bridge.rxq = []) (hm : resp.length = m) (h3 : 3 ≤ m) (h258 : m ≤ 258) :
    ∃ t, runSteps 12 (busyAt o .tTx (.arrive resp :: .yield :: .yield :: .yield :: .yield :: .yield :: es) s) = .next t ∧
      Completes o s.cb resp data es s t := by
  have hq : (answered m resp s).bridge.rxq = resp := by simp [answered, hx]
  have hp : pollsHere (busyAt o .tPoll es (answered m resp s)) = true := by
    obtain ⟨rfl, -⟩ | ⟨rfl, -⟩ := ho <;> rfl
  have hh : (polled (answered m resp s)).hist =
      s.hist ++ [.txWrite s.cb, .rxCount resp.length, .rxCount resp.length, .rxRead resp] := by
    simp only [polled, hq]
    simp [answered]
  have hr : (polled (answered m resp s)).rxbuf = resp := hq
  have send := send_rounds (es := .yield :: .yield :: .yield :: .yield :: es) (resp := resp) (s := s) (m := m)
    (ho.imp (fun h => ⟨h.1, h.2.1⟩) (fun h => ⟨h.1, h.2.1⟩))
  have poll := poll_rounds (es := es) (q' := .tValid) hp (fun t h => by simp [afterPoll, h]) ha (by rw [hq]; exact hm)
  have last := validate_last (es := es) (s := polled (answered m resp s)) (o := o) (data := data)
    (by rw [hr]; exact ho.imp (fun h => ⟨h.1, h.2.2⟩) (fun h => ⟨h.1, h.2.2⟩))
    (by rw [hr]; exact hm) (by rw [hr]; omega) (by rw [hr]; omega)
  obtain ⟨hbusy, hseq, hsess, haddr, hrx, hcnt, hin, h0, h1, h2, hist⟩ :=
    checkAcks_frame data (busyAt o .tValid es (polled (answered m resp s)))
  refine ⟨_, runSteps_append send (runSteps_append poll last), hbusy, hseq, hsess, haddr, hrx.trans hr, hcnt,
    congrArg Inputs.events hin, ?_, ?_, ?_, ?_⟩
  · rw [endTurn_nak0, h0]; exact congrArg (nakBit · 0) hr
  · rw [endTurn_nak1, h1]; exact congrArg (nakBit · 1) hr
  · rw [endTurn_nak2, h2]; exact congrArg (nakBit · 2) hr
  · rw [endTurn_hist, hist]
    show (polled (answered m resp s)).hist ++ [ackResult o (polled (answered m resp s)).rxbuf data] = _
    rw [hh, hr, List.append_assoc]
    rfl

/-! ## Whole transactions -/

/-- The whole of WRREG in an Open session, whatever three bytes answer it. -/
theorem wrReg_run {r v : Byte} (ht : s.turn = .controller) (hb : s.busy = false)
    (hs : s.sess = .opened) (ha : s.pollAt = .idle) (hw : encodeHost (.wrReg r v) = some w) (hp : s.port = some w)
    (hx : s.bridge.rxq = []) (hm : resp.length = 3) (he : s.inputs.events = writeScript resp ++ es) :
    ∃ t, runSteps 28 s = .next t ∧
      Completes .wrRegOp (wrRegBurst s.cfg.nrepData s.addr r v) resp [] es s t := by
  have ho : hostOpc w = HostOp.wrRegOp.opc := by cases hw; exact hostOpc_hostWordOf ..
  have hreg : hostReg w = r := by cases hw; exact hostReg_hostWordOf ..
  have harg : hostArg w = v := by cases hw; exact hostArg_hostWordOf ..
  have accepted := accept_round ht hb hw hp ho he
  have address := address_rounds (es := .yield :: .yield :: .arrive resp :: .yield :: .yield :: .yield :: .yield ::
    .yield :: es) (s := latched w s) (.inr ⟨rfl, rfl⟩) hs
  have build := wrVal_rounds (es := .arrive resp :: .yield :: .yield :: .yield :: .yield :: .yield :: es)
    (s := { latched w s with cb := addressPart s.cfg.nrepData s.addr (hostReg w) })
  obtain ⟨t, run, ended⟩ := response_run (o := .wrRegOp) (es := es) (resp := resp) (m := 3) (data := [])
    (s := { latched w s with cb := wrRegBurst s.cfg.nrepData s.addr (hostReg w) (hostArg w) })
    (.inr ⟨rfl, rfl, rfl⟩) ha hx hm (by decide) (by decide)
  refine ⟨t, runSteps_append accepted (runSteps_append address (runSteps_append build run)), ?_⟩
  rw [← hreg, ← harg]
  exact { ended with }

theorem readScript_append (n : Nat) (resp : List Byte) (es : List EnvEvent) :
    readScript n resp ++ es = .yield :: .yield :: .yield :: .yield :: .yield :: .yield :: .yield :: .yield ::
      (List.replicate n .yield ++
        .yield :: .arrive resp :: .yield :: .yield :: .yield :: .yield :: .yield :: es) := by
  rw [readScript, show 9 + n = 8 + (n + 1) by ring, List.replicate_add, List.replicate_succ' (n := n)]
  simp only [List.append_assoc]
  rfl

/-- The whole of RDREG in an Open session, for every count, whatever bytes answer it. -/
theorem rdReg_run {r n : Byte} (ht : s.turn = .controller) (hb : s.busy = false)
    (hs : s.sess = .opened) (ha : s.pollAt = .idle) (hw : encodeHost (.rdReg r n) = some w) (hp : s.port = some w)
    (hx : s.bridge.rxq = []) (hm : resp.length = n.toNat + 3)
    (he : s.inputs.events = readScript n.toNat resp ++ es) :
    ∃ t, runSteps (30 + 2 * n.toNat) s = .next t ∧
      Completes .rdRegOp (rdRegBurst s.cfg.nrepData s.addr r n) resp (resp.drop 3) es s t := by
  have ho : hostOpc w = HostOp.rdRegOp.opc := by cases hw; exact hostOpc_hostWordOf ..
  have hreg : hostReg w = r := by cases hw; exact hostReg_hostWordOf ..
  have hcnt : hostCnt w = n := by cases hw; exact hostCnt_hostWordOf ..
  rw [readScript_append] at he
  have accepted := accept_round ht hb hw hp ho he
  have address := address_rounds (es := .yield :: .yield :: (List.replicate n.toNat .yield ++ .yield ::
    .arrive resp :: .yield :: .yield :: .yield :: .yield :: .yield :: es)) (s := latched w s) (.inl ⟨rfl, rfl⟩) hs
  obtain ⟨j, build⟩ := start2_rounds (es := .arrive resp :: .yield :: .yield :: .yield :: .yield :: .yield :: es)
    (s := { latched w s with cb := addressPart s.cfg.nrepData s.addr (hostReg w) }) (congrArg BitVec.toNat hcnt)
  obtain ⟨t, run, ended⟩ := response_run (o := .rdRegOp) (es := es) (resp := resp) (m := n.toNat + 3)
    (data := resp.drop 3)
    (s := { latched w s with idx := j, cb := rdRegBurst s.cfg.nrepData s.addr (hostReg w) n })
    (.inl ⟨rfl, by rw [← hcnt]; rfl, rfl⟩) ha hx hm (by omega) (by omega)
  refine ⟨t, ?_, ?_⟩
  · rw [show 30 + 2 * n.toNat = 2 + (10 + (6 + 2 * n.toNat + 12)) by ring]
    exact runSteps_append accepted (runSteps_append address (runSteps_append build run))
  · rw [← hreg]
    exact { ended with }

end

/-! ## Result words -/

theorem toNat_rspWord (ok : Bool) (c : Cause) (o : BitVec 4) (l : Byte) :
    (rspWord ok c o l).toNat = l.toNat * 2 ^ 8 + o.toNat * 2 ^ 4 + c.code.toNat * 2 + ok.toNat := by
  have h : ((0#16 ++ l ++ o ++ c.code ++ BitVec.ofBool ok : BitVec (16 + 8 + 4 + 3 + 1))).toNat =
      l.toNat * 2 ^ 8 + o.toNat * 2 ^ 4 + c.code.toNat * 2 + ok.toNat := by
    simp only [BitVec.toNat_append, Nat.shiftLeft_eq_mul_pow, Nat.mul_comm _ (2 ^ _), BitVec.isLt,
      ← Nat.two_pow_add_eq_or_of_lt]
    simp
    omega
  exact h

/-- The result word of a successful read of `n` bytes (R97, R179). -/
theorem rspWord_rdReg_ok (n : Byte) :
    rspWord true .none HostOp.rdRegOp.opc n = BitVec.ofNat 32 (0x41 + 256 * n.toNat) := by
  refine BitVec.eq_of_toNat_eq ?_
  simp [toNat_rspWord, HostOp.opc, Cause.code]
  omega

/-- The three bits an acknowledgement check reads (R178). -/
theorem anyNak_cons (b0 b1 b2 : Byte) (rest : List Byte) :
    anyNak (b0 :: b1 :: b2 :: rest) = (b0.getLsbD 0 || b1.getLsbD 0 || b2.getLsbD 0) := rfl

/-- Settles O30: the run is that of `wrReg_run`, the result that of the three acknowledgement bits. -/
theorem writeRunsToItsResult : Obligations.WriteRunsToItsResult := by
  intro r v s b0 b1 b2 evs ht hb hs ha hp hx he
  obtain ⟨t, run, ended⟩ := wrReg_run ht hb hs ha rfl hp.symm hx rfl he
  have hres : ackResult .wrRegOp [b0, b1, b2] [] =
      .result (if b0.getLsbD 0 || b1.getLsbD 0 || b2.getLsbD 0 then 0x00000056#32 else 0x00000051#32) [] := by
    have hok : rspWord true .none HostOp.wrRegOp.opc 0x00#8 = 0x00000051#32 := by decide
    have hnak : rspWord false .ack HostOp.wrRegOp.opc 0x00#8 = 0x00000056#32 := by decide
    rw [ackResult, anyNak_cons]
    split
    · rw [hnak]
    · exact congrArg (Event.result · []) hok
  exact ⟨t, run, ended.busy, ended.seq, ended.sess.trans hs, ended.addr, ended.rxbuf, ended.nak0, ended.nak1, ended.nak2,
    hres ▸ ended.hist, ended.pollcnt, ended.events⟩

/-- Settles O31: the run is that of `rdReg_run`, the result that of the three acknowledgement bits. -/
theorem readRunsToItsResult : Obligations.ReadRunsToItsResult := by
  intro r n s b0 b1 b2 data evs ht hb hs ha hp hx hd he
  have hm : (b0 :: b1 :: b2 :: data).length = n.toNat + 3 := congrArg (· + 3) hd
  obtain ⟨t, run, ended⟩ := rdReg_run ht hb hs ha rfl hp.symm hx hm he
  have hres : ackResult .rdRegOp (b0 :: b1 :: b2 :: data) data =
      if b0.getLsbD 0 || b1.getLsbD 0 || b2.getLsbD 0 then .result 0x00000046#32 []
      else .result (BitVec.ofNat 32 (0x41 + 256 * n.toNat)) data := by
    have hnak : rspWord false .ack HostOp.rdRegOp.opc 0x00#8 = 0x00000046#32 := by decide
    rw [ackResult, anyNak_cons, hnak, hd, BitVec.ofNat_toNat, BitVec.setWidth_eq, rspWord_rdReg_ok]
  have hist := ended.hist
  rw [hm] at hist
  exact ⟨t, run, ended.busy, ended.seq, ended.sess.trans hs, ended.addr, ended.rxbuf, hres ▸ hist, ended.events⟩

end Sys2Proof.Machine
end

section
/-! What a step can do to the state of the block, said once: the positions an operation goes through, the actions of its
SEQ states, and the moves of the three agents. Every invariant below is read off these. -/

namespace Sys2Proof.Machine

/-! ## Where the sequencer goes -/

/-- The positions that follow one another inside an operation without the bridge being acquired or released (R28): what
OPEN's checks, settings, sends and polls lead to, and the course of a transaction. -/
inductive GoesTo : HostOp → Session → Seq → Seq → Prop
  | checked : GoesTo .openOp .closed .oCheck .oAcq
  | refused {x} : GoesTo .openOp x .oAcq .oRefused
  | restarted {x} : GoesTo .openOp x .oRst .oDrain
  | draining {x} : GoesTo .openOp x .oDrain .oDrainPoll
  | drained {x} : GoesTo .openOp x .oDrainPoll .oCfgLatency
  | latencySet {x} : GoesTo .openOp x .oCfgLatency .oCfgUsb
  | usbSet {x} : GoesTo .openOp x .oCfgUsb .oCfgTimeouts
  | timeoutsSet {x} : GoesTo .openOp x .oCfgTimeouts .oModeReset
  | modeReset {x} : GoesTo .openOp x .oModeReset .oModeShift
  | modeShift {x} : GoesTo .openOp x .oModeShift .oSync1Tx
  | sync1Sent {x} : GoesTo .openOp x .oSync1Tx .oSync1Poll
  | sync1Polled {x} : GoesTo .openOp x .oSync1Poll .oSync1Cmp
  | sync1Passed {x} : GoesTo .openOp x .oSync1Cmp .oSync2Tx
  | sync1Failed {x} : GoesTo .openOp x .oSync1Cmp .oAbort
  | sync2Sent {x} : GoesTo .openOp x .oSync2Tx .oSync2Poll
  | sync2Polled {x} : GoesTo .openOp x .oSync2Poll .oSync2Cmp
  | sync2Passed {x} : GoesTo .openOp x .oSync2Cmp .oClk
  | sync2Failed {x} : GoesTo .openOp x .oSync2Cmp .oAbort
  | clockSet {x} : GoesTo .openOp x .oClk .oDiv
  | dividerSet {x} : GoesTo .openOp x .oDiv .oLb
  | loopSet {x} : GoesTo .openOp x .oLb .oDone
  | begun {o} (ho : o = .rdRegOp ∨ o = .wrRegOp) : GoesTo o .opened .tCheck (.tBuild .clear)
  | build {o x p p'} (hp : inProgram o (.tBuild p') = true) : GoesTo o x (.tBuild p) (.tBuild p')
  | built {o x} (ho : o = .rdRegOp ∨ o = .wrRegOp) : GoesTo o x (.tBuild .stop) .tTx
  | sent {o x} (ho : o = .rdRegOp ∨ o = .wrRegOp) : GoesTo o x .tTx .tPoll
  | answered {o x} (ho : o = .rdRegOp ∨ o = .wrRegOp) : GoesTo o x .tPoll .tValid

/-- The positions that can only fail, as the session stands (R132, R133, R137, R170). -/
inductive FailsAt : HostOp → Session → Seq → Prop
  | openCheck : FailsAt .openOp .opened .oCheck
  | openRefused {x} : FailsAt .openOp x .oRefused
  | openFail {x} : FailsAt .openOp x .oFail
  | closeRelease : FailsAt .closeOp .closed .cRel
  | sessionCheck {o} (ho : o = .rdRegOp ∨ o = .wrRegOp) : FailsAt o .closed .tCheck

theorem goesTo_inProgram {o : HostOp} {x : Session} {p q : Seq} (hg : GoesTo o x p q) : inProgram o q = true := by
  cases hg with
  | build hp => exact hp
  | begun ho => obtain rfl | rfl := ho <;> rfl
  | built ho => obtain rfl | rfl := ho <;> rfl
  | sent ho => obtain rfl | rfl := ho <;> rfl
  | answered ho => obtain rfl | rfl := ho <;> rfl
  | _ => rfl

section
variable {s t : State}

/-- A poll that ends goes on to the position after it. -/
theorem afterPoll_goesTo (hp : pollsHere s = true) : GoesTo s.op s.sess s.seq (afterPoll s).seq := by
  unfold pollsHere at hp
  split at hp <;> rename_i ho hq <;> simp only [afterPoll, ho, hq, moveTo_seq]
  · exact .drained
  · exact .sync1Polled
  · exact .sync2Polled
  · exact .answered (.inl rfl)
  · exact .answered (.inr rfl)
  · cases hp

/-- Moving on after a poll changes SEQ only. -/
theorem afterPoll_eq (s : State) : afterPoll s = { s with seq := (afterPoll s).seq } := by
  unfold afterPoll
  split <;> rfl

theorem primitiveAt_op {p : BuildPos} {i : Instr} (h : primitiveAt s p = some i) :
    s.op = .rdRegOp ∨ s.op = .wrRegOp := by
  cases ho : s.op <;> simp_all [primitiveAt]

/-- A primitive goes on to another position of the build, or to the send. -/
theorem afterPrimitive_goesTo {p : BuildPos} {i : Instr} (hq : s.seq = .tBuild p) (hi : primitiveAt s p = some i) :
    GoesTo s.op s.sess s.seq (afterPrimitive s).seq := by
  obtain ho | ho := primitiveAt_op hi <;> cases p <;> simp only [primitiveAt, ho, reduceCtorEq] at hi <;>
    simp only [afterPrimitive, afterRegAddr, afterRead, enterRead, hq, ho, apply_ite State.seq, moveTo_seq]
  case inl.wrAddrR => split <;> exact .build rfl
  case inl.rdLoop => split <;> exact .build rfl
  case inl.stop => exact .built (.inl rfl)
  case inr.stop => exact .built (.inr rfl)
  all_goals exact .build rfl

/-! ## The actions of the SEQ states -/

/-- The bridge keeps its holders and every byte it has queued. -/
structure KeepsQueue (b b' : Bridge) : Prop where
  held : b'.held = b.held
  others : b'.others = b.others
  rxq : b.rxq <+: b'.rxq

theorem KeepsQueue.refl (b : Bridge) : KeepsQueue b b := ⟨rfl, rfl, List.prefix_rfl⟩

/-- What the action of the SEQ state of the operation in progress does (R28). -/
inductive Advances (s : State) : State → Prop
  /-- A check, a setting, a send or a sample of OPEN, or a transaction's session check: SEQ moves on. -/
  | goes {q e b i d v} (hg : GoesTo s.op s.sess s.seq q) (hs : sent q = false) (hb : KeepsQueue s.bridge b) :
    Advances s { s with seq := q, expect := e, bridge := b, inputs := i, draws := d, hist := v }
  /-- A granted `Acquire`. -/
  | acquires {i d v} (ho : s.op = .openOp) (hq : s.seq = .oAcq) (hr : acquireReply s = true) :
    Advances s { s with
      seq := .oRst, handle := true, bridge := { s.bridge with held := true }, inputs := i, draws := d, hist := v }
  /-- The release of OPEN's abort or of a CLOSE. -/
  | releases {q} (hq : s.op = .openOp ∧ s.seq = .oAbort ∧ q = .oFail ∨
      s.op = .closeOp ∧ s.seq = .cRel ∧ s.sess = .opened ∧ q = .cDone) : Advances s (moveTo q (releaseBridge s))
  /-- `CbClear()`. -/
  | clears (ho : s.op = .rdRegOp ∨ s.op = .wrRegOp) (hq : s.seq = .tBuild .clear) : Advances s (buildClear s)
  /-- `TxWrite(CB)`, and the number of response bytes it asks for. -/
  | sends {n} (ho : s.op = .rdRegOp ∧ n = s.aCnt.toNat + 3 ∨ s.op = .wrRegOp ∧ n = 3) (hq : s.seq = .tTx) :
    Advances s (sendBuffer n s)
  /-- A failure other than the validator's. -/
  | fails {c} (hf : FailsAt s.op s.sess s.seq) : Advances s (fail c s)
  /-- The last act of OPEN. -/
  | opens (ho : s.op = .openOp) (hq : s.seq = .oDone) : Advances s (openDone s.aAddr s)
  /-- The last act of CLOSE. -/
  | closes (ho : s.op = .closeOp) (hq : s.seq = .cDone) : Advances s (closeDone s)
  /-- SETADDR. -/
  | rebinds (ho : s.op = .setAddrOp) (hq : s.seq = .aSet) : Advances s (succeed [] { s with addr := s.aAddr })
  /-- The validator of a transaction, whose result has at most 255 bytes of data. -/
  | validates {n0 n1 n2 ok c o data d v} (ho : s.op = .rdRegOp ∨ s.op = .wrRegOp) (hq : s.seq = .tValid)
    (hd : data.length ≤ 255) :
    Advances s { s with
      nak0 := n0, nak1 := n1, nak2 := n2, resOk := ok, resCause := c, resOpc := o
      resLen := BitVec.ofNat 8 data.length, resData := data, resValid := true, draws := d, hist := v
      busy := false, seq := .idle }

theorem openCheck_advances (ho : s.op = .openOp) (hq : s.seq = .oCheck) : Advances s (openCheck s) := by
  unfold openCheck
  split <;> rename_i hx
  · exact .fails (by rw [ho, hx, hq]; exact .openCheck)
  · exact .goes (by rw [ho, hx, hq]; exact .checked) rfl (.refl _)

theorem openAcquire_advances (ho : s.op = .openOp) (hq : s.seq = .oAcq) : Advances s (openAcquire s) := by
  obtain ⟨i, d, hg⟩ := takeGrant_eq (ctrl (.acquire Config.deviceId) s)
  unfold openAcquire
  rw [hg]
  split <;> rename_i hr
  · exact .acquires ho hq hr
  · exact .goes (by rw [ho, hq]; exact .refused) rfl (.refl _)

theorem openCompare_advances {echo : List Byte} {q : Seq} (hq : GoesTo s.op s.sess s.seq q)
    (ha : GoesTo s.op s.sess s.seq .oAbort) (hs : sent q = false) : Advances s (openCompare echo q s) := by
  unfold openCompare
  split
  · exact .goes hq hs (.refl _)
  · exact .goes ha rfl (.refl _)

theorem advanceOpen_advances (ho : s.op = .openOp) (h : advanceOpen s.aAddr s = .next t) : Advances s t := by
  cases hq : s.seq <;> simp only [advanceOpen, hq, reduceCtorEq, Host.Outcome.next.injEq] at h <;> subst h
  case oCheck => exact openCheck_advances ho hq
  case oAcq => exact openAcquire_advances ho hq
  case oRefused => exact .fails (by rw [ho, hq]; exact .openRefused)
  case oSync1Cmp =>
    exact openCompare_advances (by rw [ho, hq]; exact .sync1Passed) (by rw [ho, hq]; exact .sync1Failed) rfl
  case oSync2Cmp =>
    exact openCompare_advances (by rw [ho, hq]; exact .sync2Passed) (by rw [ho, hq]; exact .sync2Failed) rfl
  case oAbort => exact .releases (.inl ⟨ho, hq, rfl⟩)
  case oFail => exact .fails (by rw [ho, hq]; exact .openFail)
  case oDone => exact .opens ho hq
  all_goals exact .goes (by rw [ho, hq]; constructor) rfl ⟨rfl, rfl, List.prefix_rfl⟩

theorem advanceClose_advances (ho : s.op = .closeOp) (h : advanceClose s = .next t) : Advances s t := by
  unfold advanceClose at h
  split at h <;> cases h <;> rename_i hq
  · unfold closeRelease
    split <;> rename_i hx
    · exact .releases (.inr ⟨ho, hq, hx, rfl⟩)
    · exact .fails (by rw [ho, hx, hq]; exact .closeRelease)
  · exact .closes ho hq

theorem advanceSetAddr_advances (ho : s.op = .setAddrOp) (h : advanceSetAddr s.aAddr s = .next t) : Advances s t := by
  unfold advanceSetAddr at h
  split at h <;> cases h
  exact .rebinds ho ‹_›

theorem sessionCheck_advances (ho : s.op = .rdRegOp ∨ s.op = .wrRegOp) (hq : s.seq = .tCheck) :
    Advances s (sessionCheck s) := by
  unfold sessionCheck
  split <;> rename_i hx
  · exact .fails (by rw [hx, hq]; exact .sessionCheck ho)
  · exact .goes (by rw [hx, hq]; exact .begun ho) rfl (.refl _)

/-- A success returns no more than was retrieved, and a retrieval that is usable holds at most 258 bytes (R178). -/
theorem validate_advances (isRead : Bool) (ho : s.op = .rdRegOp ∨ s.op = .wrRegOp) (hq : s.seq = .tValid) :
    Advances s (validate isRead s) := by
  obtain ⟨-, h⟩ | ⟨-, h⟩ | ⟨-, -, h⟩ | ⟨hc, -, h⟩ := validate_cases isRead s
  · rw [h]; exact .validates ho hq (Nat.zero_le _)
  · obtain ⟨data, hd, -, h'⟩ | ⟨c, -, h'⟩ := lenientResult_cases isRead s <;> rw [h, h']
    · exact .validates ho hq hd
    · exact .validates ho hq (Nat.zero_le _)
  · rw [h]; exact .validates ho hq (Nat.zero_le _)
  · obtain ⟨-, hmax, -⟩ := lengthCheck_usable hc
    rw [h]
    refine .validates ho hq ?_
    split
    · rw [List.length_drop]
      exact Nat.sub_le_sub_right hmax 3
    · exact Nat.zero_le _

theorem advanceRdReg_advances (ho : s.op = .rdRegOp) (h : advanceRdReg s.aCnt s = .next t) : Advances s t := by
  unfold advanceRdReg at h
  split at h <;> cases h <;> rename_i hq
  · exact sessionCheck_advances (.inl ho) hq
  · exact .clears (.inl ho) hq
  · exact .sends (.inl ⟨ho, rfl⟩) hq
  · exact validate_advances true (.inl ho) hq

theorem advanceWrReg_advances (ho : s.op = .wrRegOp) (h : advanceWrReg s = .next t) : Advances s t := by
  unfold advanceWrReg at h
  split at h <;> cases h <;> rename_i hq
  · exact sessionCheck_advances (.inr ho) hq
  · exact .clears (.inr ho) hq
  · exact .sends (.inr ⟨ho, rfl⟩) hq
  · exact validate_advances false (.inr ho) hq

/-- Every action of the operation in progress is one of these. -/
theorem advance_advances (h : advance s = .next t) : Advances s t := by
  unfold advance at h
  split at h <;> rename_i ho
  · exact advanceOpen_advances ho h
  · exact advanceClose_advances ho h
  · exact advanceSetAddr_advances ho h
  · exact advanceRdReg_advances ho h
  · exact advanceWrReg_advances ho h

/-! ## The moves of the agents -/

/-- A bridge command keeps the holders and the visible bytes; it may make more of them visible (R38, R223). -/
theorem exec_bridgeCommand_keepsQueue {i : Instr} (hl : i.level = .bridgeCommand) (h : exec i s = .next t) :
    KeepsQueue s.bridge t.bridge := by
  cases i <;> simp only [Instr.level, reduceCtorEq] at hl <;>
    simp only [exec, execGpio, execByteOut, execByteIn, execBitIn, execBitOut, execClkNoDiv5, execClkNoAdapt,
      execClkPhase, execLoopOff, execSendNow, execSetDiv, execSync1, execSync2, Host.Outcome.next.injEq] at h <;>
    subst h
  case byteIn =>
    obtain ⟨n, d, hs⟩ := sampleBits_eq 8 0x00#8 s
    rw [hs]
    exact ⟨rfl, rfl, List.prefix_rfl⟩
  case bitIn =>
    obtain ⟨n, d, hs⟩ := takeLevel_eq s
    rw [hs]
    exact ⟨rfl, rfl, List.prefix_rfl⟩
  case sendNow => exact ⟨rfl, rfl, List.prefix_append _ _⟩
  all_goals exact ⟨rfl, rfl, List.prefix_rfl⟩

/-- The bridge's own step keeps its holders and the visible bytes. -/
theorem bridgeTurn_keepsQueue (h : bridgeTurn s = .next t) : KeepsQueue s.bridge t.bridge := by
  obtain rfl | rfl | ⟨i, rest, u, -, hl, hu, rfl⟩ := bridgeTurn_cases h
  · exact .refl _
  · exact ⟨rfl, rfl, List.prefix_append _ _⟩
  · obtain ⟨hh, ho, hx⟩ := exec_bridgeCommand_keepsQueue hl hu
    exact ⟨hh, ho, hx⟩

/-- What one step of any agent does. -/
inductive Moves (s : State) : State → Prop
  /-- An idle controller has no word. -/
  | waits (ht : s.turn = .controller) (hb : s.busy = false) : Moves s (endTurn s)
  /-- An idle controller answers an illegal word. -/
  | rejects {w} (ht : s.turn = .controller) (hb : s.busy = false) : Moves s (endTurn (takeWord (failIllegal w s)))
  /-- An idle controller accepts a legal word. -/
  | accepts {w i o v} (ht : s.turn = .controller) (hb : s.busy = false) (hp : s.port = some w)
    (hd : decodeHost w = .ok i) : Moves s (endTurn (takeWord (accept o v s)))
  /-- A busy controller starts a poll, samples or counts the queue. -/
  | polls {c p v} (ht : s.turn = .controller) (hb : s.busy = true) (hp : pollsHere s = true)
    (hc : c = s.pollcnt ∨ c.toNat ≤ Config.pollMax) (hm : ∀ m, p = .retrieve m → m = s.bridge.rxq.length) :
    Moves s { s with pollcnt := c, pollAt := p, hist := v, turn := .env }
  /-- A busy controller retrieves, which ends the poll. -/
  | retrieves {m q v} (ht : s.turn = .controller) (hb : s.busy = true) (hp : pollsHere s = true)
    (ha : s.pollAt = .retrieve m) (hg : GoesTo s.op s.sess s.seq q) :
    Moves s { pollRetrieve m s with seq := q, hist := v, turn := .env }
  /-- A busy controller runs a primitive of the build. -/
  | builds {p i bs q x} (ht : s.turn = .controller) (hb : s.busy = true) (hp : pollsHere s = false)
    (hq : s.seq = .tBuild p) (hi : primitiveAt s p = some i) (hg : GoesTo s.op s.sess s.seq q) (hs : sent q = false) :
    Moves s { s with cb := s.cb ++ bs, seq := q, idx := x, turn := .env }
  /-- A busy controller runs the action of its SEQ state. -/
  | advances {u} (ht : s.turn = .controller) (hb : s.busy = true) (hp : pollsHere s = false) (hu : Advances s u) :
    Moves s (endTurn u)
  /-- The bridge moves. -/
  | runs {b e n d} (ht : s.turn = .bridge) (hb : KeepsQueue s.bridge b) :
    Moves s { s with bridge := b, bus := e, inputs := n, draws := d, turn := .env }
  /-- The environment schedules, presents a word, or brings response bytes. -/
  | serves {q x r n d p} (ht : s.turn = .env) (hx : s.bridge.rxq <+: x) (hp : ∀ w, s.port = some w → p = some w) :
    Moves s { s with bridge := { s.bridge with rxq := x, resp := r }, inputs := n, draws := d, turn := q, port := p }
  /-- Another session uses the bridge. -/
  | shares {b n d} (ht : s.turn = .env) (he : nextEvent s = .otherSession b) :
    Moves s { s with bridge := { b with held := s.bridge.held }, inputs := n, draws := d }
  /-- The reset input is asserted. -/
  | resets {n d} (ht : s.turn = .env) (he : nextEvent s = .reset) :
    Moves s (resetInput { s with inputs := n, draws := d })

/-- One step of a poll, the move to the next position included. -/
theorem execPoll_moves {u : State} (ht : s.turn = .controller) (hb : s.busy = true) (hp : pollsHere s = true)
    (hu : execPoll s.expect s = .next u) : Moves s (endTurn (if pollEnds s then afterPoll u else u)) := by
  obtain ⟨ha, rfl⟩ | ⟨ha, rfl⟩ | ⟨ha, rfl⟩ | ⟨m, ha, rfl⟩ := execPoll_cases hu <;> simp only [pollEnds, ha, if_true]
  · exact .polls ht hb hp (.inr (Nat.zero_le _)) nofun
  · obtain ⟨-, -, hs⟩ | ⟨hc, -, hs⟩ | ⟨-, hs⟩ := pollSample_cases s.expect s <;> rw [hs]
    · exact .polls ht hb hp (.inl rfl) nofun
    · have hn : (s.pollcnt + 1#20).toNat ≤ 1000000 := by
        have hc' : s.pollcnt.toNat < 1000000 := hc
        bv_omega
      exact .polls ht hb hp (.inr hn) (by simp [ha])
    · exact .polls ht hb hp (.inl rfl) nofun
  · exact .polls ht hb hp (.inl rfl) (by rintro m ⟨⟩; rfl)
  · rw [afterPoll_eq]
    exact .retrieves ht hb hp ha (afterPoll_goesTo (s := pollRetrieve m s) hp)

/-- A primitive of the build, the move to the next position included. -/
theorem afterPrimitive_moves {p : BuildPos} {i : Instr} (bs : List Byte) (ht : s.turn = .controller)
    (hb : s.busy = true) (hp : pollsHere s = false) (hq : s.seq = .tBuild p) (hi : primitiveAt s p = some i) :
    Moves s (endTurn (afterPrimitive (cbAppend bs s))) := by
  have hg := afterPrimitive_goesTo (s := cbAppend bs s) hq hi
  have hs := sent_afterPrimitive (s := cbAppend bs s) hq
  obtain ⟨q, x, he⟩ := afterPrimitive_eq (cbAppend bs s)
  rw [he] at hg hs ⊢
  exact .builds ht hb hp hq hi hg hs

theorem controllerTurn_moves (ht : s.turn = .controller) (h : controllerTurn s = .next t) : Moves s t := by
  cases hb : s.busy
  · obtain ⟨-, rfl⟩ | ⟨w, e, -, -, rfl⟩ | ⟨w, i, u, hp, hd, hu, rfl⟩ := controllerTurn_idle_cases hb h
    · exact .waits ht hb
    · exact .rejects ht hb
    · obtain ⟨o, v, hx⟩ := exec_hostOperation_idle (decodeHost_level hd) hb
      obtain rfl : accept o v s = u := by simpa [hx] using hu
      exact .accepts ht hb hp hd
  · obtain ⟨hp, u, hu, rfl⟩ | ⟨hp, p, i, u, hq, hi, hu, rfl⟩ | ⟨hp, -, u, hu, rfl⟩ := controllerTurn_busy_cases hb h
    · exact execPoll_moves ht hb hp hu
    · obtain ⟨bs, hx⟩ := exec_primitiveAt hi
      obtain rfl : cbAppend bs s = u := by simpa [hx] using hu
      exact afterPrimitive_moves bs ht hb hp hq hi
    · rw [exec_inProgress hb] at hu
      exact .advances ht hb hp (advance_advances hu)

theorem applyEvent_moves (ht : s.turn = .env) : Moves s (applyEvent (nextEvent s) (takeEvent s)) := by
  obtain ⟨n, d, hs⟩ := takeEvent_eq s
  rw [hs]
  cases he : nextEvent s with
  | otherSession b => exact .shares ht he
  | reset => exact .resets ht he
  | present w =>
    simp only [applyEvent, presentWord]
    split <;> rename_i hp
    · exact .serves ht List.prefix_rfl (fun _ h => h)
    · exact .serves ht List.prefix_rfl (fun w' h => by simp [h] at hp)
  | flush => exact .serves ht (List.prefix_append _ _) (fun _ h => h)
  | arrive bs => exact .serves ht (List.prefix_append _ _) (fun _ h => h)
  | yield => exact .serves ht List.prefix_rfl (fun _ h => h)
  | run => exact .serves ht List.prefix_rfl (fun _ h => h)

/-- Every step of every agent is one of these moves. -/
theorem step_moves (h : step s = .next t) : Moves s t := by
  cases ht : s.turn with
  | controller => exact controllerTurn_moves ht (step_controller ht ▸ h)
  | bridge =>
    rw [step_bridge ht] at h
    have hb := bridgeTurn_keepsQueue h
    obtain ⟨b, e, n, d, rfl⟩ := bridgeTurn_frame h
    exact .runs ht hb
  | env =>
    obtain rfl : applyEvent (nextEvent s) (takeEvent s) = t := by simpa [step_env ht] using h
    exact applyEvent_moves ht

end
end Sys2Proof.Machine
end

section
/-! The invariants of the block, the writers of its registers and the queue, read off the moves. -/

namespace Sys2Proof.Machine

/-! ## What actions leave unchanged -/

section
variable {s t : State}

/-- The build parameters, the divider, RXBUF, OP, the latches, the poll and the port are as they were, and every queued
byte is in its place. -/
structure KeepsLatches (s t : State) : Prop where
  cfg : t.cfg = s.cfg
  div : t.div = s.div
  rxbuf : t.rxbuf = s.rxbuf
  op : t.op = s.op
  aAddr : t.aAddr = s.aAddr
  aReg : t.aReg = s.aReg
  aVal : t.aVal = s.aVal
  aCnt : t.aCnt = s.aCnt
  pollcnt : t.pollcnt = s.pollcnt
  pollAt : t.pollAt = s.pollAt
  port : t.port = s.port
  rxq : s.bridge.rxq <+: t.bridge.rxq

theorem advances_keepsLatches (h : Advances s t) : KeepsLatches s t := by
  cases h with
  | goes _ _ hb => exact ⟨rfl, rfl, rfl, rfl, rfl, rfl, rfl, rfl, rfl, rfl, rfl, hb.rxq⟩
  | _ => exact ⟨rfl, rfl, rfl, rfl, rfl, rfl, rfl, rfl, rfl, rfl, rfl, List.prefix_rfl⟩

end

/-- Settles O57: only a reset writes DIV, and it writes CLKDIV. -/
theorem dividerStaysHardwired : Obligations.DividerStaysHardwired := by
  intro s t h
  cases step_moves h with
  | advances _ _ _ hu =>
    have hk := advances_keepsLatches hu
    exact ⟨hk.cfg, fun hd => (hk.div.trans hd).trans (congrArg BuildParams.clkdiv hk.cfg).symm⟩
  | resets => exact ⟨rfl, fun _ => rfl⟩
  | _ => exact ⟨rfl, id⟩

/-! ## Result data -/

/-- Settles O58: every result but the validator's, and every reset, leaves RES_DATA empty. -/
theorem resultLengthMatchesData : Obligations.ResultLengthMatchesData := by
  intro s t hr h
  cases step_moves h with
  | rejects => rfl
  | advances _ _ _ hu =>
    cases hu with
    | validates _ _ hd => exact (Nat.mod_eq_of_lt (Nat.lt_succ_of_le hd)).symm
    | fails | opens | closes | rebinds => rfl
    | _ => exact hr
  | resets => rfl
  | _ => exact hr

/-! ## The queue and the port -/

/-- Settles O55: every move but another session's, a reset in mid-operation and a retrieval keeps what is queued in its
place. -/
theorem onlyRetrievalShortensQueue : Obligations.OnlyRetrievalShortensQueue := by
  intro s t hu h hreset hread
  cases step_moves h with
  | retrieves ht hb hp ha => exact absurd ⟨ht, hb, hp, _, ha⟩ hread
  | advances _ _ _ ha => exact (advances_keepsLatches ha).rxq
  | runs _ hb => exact hb.rxq
  | serves _ hx => exact hx
  | shares ht he => exact absurd he (hu ht _)
  | resets ht he =>
    have hb : s.busy = false := Bool.eq_false_of_not_eq_true fun hb => hreset ⟨ht, he, hb⟩
    simp [resetInput, hb]
  | _ => exact List.prefix_rfl

/-- Settles O11: the word of another operation waits, and only an idle controller takes the word at the port. -/
theorem busyPortKeepsWord : Obligations.BusyPortKeepsWord := by
  refine ⟨?other, ?word⟩
  case other =>
    intro i s hl hb hi
    cases i <;> simp only [Instr.level, reduceCtorEq] at hl <;> exact hostOperation_of_other hb hi
  case word =>
    intro s t w hb hw h
    cases step_moves h with
    | waits _ hi => simp [hi] at hb
    | rejects _ hi => simp [hi] at hb
    | accepts _ hi => simp [hi] at hb
    | advances _ _ _ hu => exact (advances_keepsLatches hu).port.trans hw
    | serves _ _ hp => exact hp w hw
    | _ => exact hw

/-! ## EXPECT -/

section
variable {s t : State}

theorem sent_iff {q : Seq} : sent q = true ↔ q = .tPoll ∨ q = .tValid := by
  cases q <;> simp [sent]

theorem expectInv_of_not_sent (h : sent s.seq = false) : ExpectInv s := fun hq => by
  simp [sent_iff.2 hq] at h

/-- Of the positions that poll, only a transaction's leads to one after a send. -/
theorem seq_eq_tPoll {q : Seq} (hp : pollsHere s = true) (hg : GoesTo s.op s.sess s.seq q) (hq : sent q = true) :
    s.seq = .tPoll := by
  generalize ho : s.op = o at hg
  generalize hp' : s.seq = p at hg
  generalize s.sess = x at hg
  cases hg <;> simp_all [sent, pollsHere]

theorem advances_expectInv (h : Advances s t) : ExpectInv t := by
  cases h with
  | goes _ hs => exact expectInv_of_not_sent hs
  | releases hq => obtain ⟨-, -, rfl⟩ | ⟨-, -, -, rfl⟩ := hq <;> exact expectInv_of_not_sent rfl
  | sends ho hq =>
    obtain ⟨ho, rfl⟩ | ⟨ho, rfl⟩ := ho <;> intro <;> simp [sendBuffer, ho]
  | _ => exact expectInv_of_not_sent rfl

end

/-- Settles O51: the send writes EXPECT as it leads to the poll, and no later move of the transaction writes it. -/
theorem expectedCountKept : Obligations.ExpectedCountKept := by
  intro s t hi h
  cases step_moves h with
  | rejects => exact expectInv_of_not_sent rfl
  | @accepts w i o v => exact expectInv_of_not_sent (by cases o <;> rfl)
  | retrieves _ _ hp _ hg =>
    exact fun hq => hi (.inl (seq_eq_tPoll hp hg (sent_iff.2 hq)))
  | builds _ _ _ _ _ _ hs => exact expectInv_of_not_sent hs
  | advances _ _ _ hu => exact (advances_expectInv hu : ExpectInv _)
  | resets => exact expectInv_of_not_sent rfl
  | _ => exact hi

/-! ## The build -/

/-- Settles O27: the build is cleared to the empty plan (`buildClear_buildInv`), each primitive appends the plan's next part
(`primitive_buildInv`), and no other step touches CB (`step_buildInv`). -/
theorem buildHoldsPlannedBurst : Obligations.BuildHoldsPlannedBurst := fun _ _ => step_buildInv

/-! ## Polls -/

section
variable {s t : State}

/-- Outside the positions that poll no poll is in progress. -/
theorem PollInv.pollAt_idle (hi : PollInv s) (hn : ¬ (s.busy = true ∧ pollsHere s = true)) : s.pollAt = .idle :=
  Classical.not_not.1 fun h => hn (hi.1 h)

theorem pollInv_of_idle (ha : t.pollAt = .idle) (hc : t.pollcnt.toNat ≤ Config.pollMax) : PollInv t :=
  ⟨fun h => absurd ha h, hc, by rw [ha]; trivial⟩

/-- More bytes in the queue do no harm to a poll. -/
theorem PollInv.of_prefix (hi : PollInv s) (hb : t.busy = s.busy) (hp : pollsHere t = pollsHere s)
    (hc : t.pollcnt = s.pollcnt) (ha : t.pollAt = s.pollAt) (hx : s.bridge.rxq <+: t.bridge.rxq) : PollInv t := by
  obtain ⟨hpos, hcnt, hret⟩ := hi
  refine ⟨by rwa [ha, hb, hp], by rwa [hc], ?_⟩
  rw [ha]
  split at hret <;> rename_i hm
  · exact hret.trans hx.length_le
  · trivial

theorem step_pollInv (hu : Undisturbed s) (hi : PollInv s) (h : step s = .next t) : PollInv t := by
  have ⟨_, hcnt, _⟩ := hi
  cases step_moves h with
  | waits _ hb => exact pollInv_of_idle (hi.pollAt_idle (by simp [hb])) hcnt
  | rejects _ hb => exact pollInv_of_idle (hi.pollAt_idle (by simp [hb])) hcnt
  | accepts _ hb => exact pollInv_of_idle (hi.pollAt_idle (by simp [hb])) hcnt
  | polls _ hb hp hc hm =>
    refine ⟨fun _ => ⟨hb, hp⟩, ?_, ?_⟩
    · obtain rfl | hc := hc
      · exact hcnt
      · exact hc
    · split <;> rename_i ha
      · exact (hm _ ha).le
      · trivial
  | retrieves => exact pollInv_of_idle rfl hcnt
  | builds _ _ hp => exact pollInv_of_idle (hi.pollAt_idle (by simp [hp])) hcnt
  | advances _ _ hp ha =>
    have hk := advances_keepsLatches ha
    exact pollInv_of_idle (hk.pollAt.trans (hi.pollAt_idle (by simp [hp])))
      (by rw [endTurn_pollcnt, hk.pollcnt]; exact hcnt)
  | runs _ hb => exact hi.of_prefix rfl rfl rfl rfl hb.rxq
  | serves _ hx => exact hi.of_prefix rfl rfl rfl rfl hx
  | shares ht he => exact absurd he (hu ht _)
  | resets => exact pollInv_of_idle rfl (Nat.zero_le _)

end

/-- Settles O38: the step invariant, and a retrieval splits the queue at its count. -/
theorem pollInvariantKept : Obligations.PollInvariantKept := by
  refine ⟨fun s t => step_pollInv, fun n m s hi ha => ?_⟩
  obtain ⟨-, -, hret⟩ := hi
  have hm : m ≤ s.bridge.rxq.length := by simpa [ha] using hret
  exact ⟨_, execPoll_retrieve ha, by simpa using hm, List.take_append_drop m _⟩

/-! ## The sequencer and the handle -/

section
variable {s t : State}

theorem blockInv_of_busy (hb : t.busy = true) (hq : inProgram t.op t.seq = true) (hh : HandleInv t) : BlockInv t :=
  ⟨by simpa [SequencerInv, hb] using hq, hh⟩

theorem handleInv_of_idle (hq : t.seq = .idle) : HandleInv t ↔ (t.handle = true ↔ t.sess = .opened) := by
  simp [HandleInv, hq, openHolds, openWithout, transactionRuns]

theorem blockInv_of_idle (hb : t.busy = false) (hq : t.seq = .idle) (hh : t.handle = true ↔ t.sess = .opened) :
    BlockInv t :=
  ⟨by simpa [SequencerInv, hb] using hq, (handleInv_of_idle hq).2 hh⟩

/-- In an idle block HANDLE follows SESS (R21, R22). -/
theorem BlockInv.handle_iff (hi : BlockInv s) (hb : s.busy = false) : s.handle = true ↔ s.sess = .opened := by
  obtain ⟨hs, hh⟩ := hi
  exact (handleInv_of_idle (by simpa [SequencerInv, hb] using hs)).1 hh

/-- The positions that follow one another ask the same of HANDLE and SESS. -/
theorem blockInv_of_goesTo (hg : GoesTo s.op s.sess s.seq t.seq) (hb : t.busy = true) (ho : t.op = s.op)
    (hh : t.handle = s.handle) (hx : t.sess = s.sess) (hi : HandleInv s) : BlockInv t := by
  refine blockInv_of_busy hb (ho ▸ goesTo_inProgram hg) ?_
  unfold HandleInv at hi ⊢
  rw [hh, hx]
  generalize s.op = o at hg
  generalize s.sess = x at *
  generalize s.seq = p at *
  generalize t.seq = q at *
  cases hg <;> simp_all [openHolds, openWithout, transactionRuns]

/-- A word is accepted where HANDLE follows SESS, and the first position of an operation asks no more. -/
theorem blockInv_of_firstState {o : HostOp} (hb : t.busy = true) (ho : t.op = o) (hq : t.seq = firstState o)
    (hh : t.handle = true ↔ t.sess = .opened) : BlockInv t := by
  cases o <;> refine blockInv_of_busy hb (by rw [ho, hq]; rfl) ?_ <;>
    simpa [HandleInv, hq, firstState, openHolds, openWithout, transactionRuns] using hh

/-- Where an operation can only fail, HANDLE follows SESS already. -/
theorem failsAt_handle (hf : FailsAt s.op s.sess s.seq) (hi : HandleInv s) : s.handle = true ↔ s.sess = .opened := by
  unfold HandleInv at hi
  generalize s.op = o at hf
  generalize s.sess = x at *
  generalize s.seq = p at *
  cases hf <;> simp_all [openHolds, openWithout, transactionRuns]

theorem advances_blockInv (hb : s.busy = true) (hi : HandleInv s) (h : Advances s t) : BlockInv t := by
  cases h with
  | goes hg => exact blockInv_of_goesTo hg hb rfl rfl rfl hi
  | acquires ho hq =>
    have hx : s.sess = .closed := (by simpa [HandleInv, hq, openHolds, openWithout] using hi : _ ∧ _).2
    exact blockInv_of_busy hb (by rw [ho]; rfl) ⟨rfl, hx⟩
  | releases hq =>
    obtain ⟨ho, hq, rfl⟩ | ⟨ho, hq, hx, rfl⟩ := hq
    · have hx : s.sess = .closed := (by simpa [HandleInv, hq, openHolds] using hi : _ ∧ _).2
      exact blockInv_of_busy hb (by simp [releaseBridge, ho, inProgram]) ⟨rfl, hx⟩
    · exact blockInv_of_busy hb (by simp [releaseBridge, ho, inProgram]) ⟨rfl, hx⟩
  | clears ho hq =>
    have hg : GoesTo s.op s.sess s.seq (.tBuild .start) := by
      rw [hq]
      exact .build (by obtain ho | ho := ho <;> rw [ho] <;> rfl)
    exact blockInv_of_goesTo (s := s) hg hb rfl rfl rfl hi
  | sends ho hq =>
    have hg : GoesTo s.op s.sess s.seq .tPoll := by
      rw [hq]
      exact .sent (ho.imp And.left And.left)
    exact blockInv_of_goesTo (s := s) hg hb rfl rfl rfl hi
  | fails hf => exact blockInv_of_idle rfl rfl (failsAt_handle (s := s) hf hi)
  | opens ho hq =>
    have hh : s.handle = true := (by simpa [HandleInv, hq, openHolds] using hi : _ ∧ _).1
    exact blockInv_of_idle rfl rfl (by simp [openDone, hh])
  | closes ho hq =>
    have hh : s.handle = false := (by simpa [HandleInv, hq, openHolds, openWithout] using hi : _ ∧ _).1
    exact blockInv_of_idle rfl rfl (by simp [closeDone, hh])
  | rebinds ho hq =>
    have hh : s.handle = true ↔ s.sess = .opened := by
      simpa [HandleInv, hq, openHolds, openWithout, transactionRuns] using hi
    exact blockInv_of_idle rfl rfl hh
  | validates ho hq =>
    have hh : s.handle = true ↔ s.sess = .opened :=
      (by simpa [HandleInv, hq, openHolds, openWithout, transactionRuns] using hi : _ ∧ _).1
    exact blockInv_of_idle rfl rfl hh

theorem step_blockInv (hi : BlockInv s) (h : step s = .next t) : BlockInv t := by
  have ⟨_, hh⟩ := hi
  cases step_moves h with
  | rejects _ hb => exact blockInv_of_idle rfl rfl (hi.handle_iff hb)
  | accepts _ hb => exact blockInv_of_firstState rfl rfl rfl (hi.handle_iff hb)
  | retrieves _ hb _ _ hg => exact blockInv_of_goesTo hg hb rfl rfl rfl hh
  | builds _ hb _ _ _ hg => exact blockInv_of_goesTo hg hb rfl rfl rfl hh
  | advances _ hb _ hu => exact (advances_blockInv hb hh hu : BlockInv _)
  | resets => exact blockInv_of_idle rfl rfl (by simp)
  | _ => exact hi

/-! ## The hold -/

theorem advances_holdInv (hi : HoldInv s) (h : Advances s t) : HoldInv t := by
  cases h with
  | goes _ _ hb => exact fun hh => hb.held.trans (hi hh)
  | acquires => exact fun _ => rfl
  | releases => exact nofun
  | _ => exact hi

theorem step_holdInv (hi : HoldInv s) (h : step s = .next t) : HoldInv t := by
  cases step_moves h with
  | advances _ _ _ hu => exact (advances_holdInv hi hu : HoldInv _)
  | runs _ hb => exact fun hh => hb.held.trans (hi hh)
  | resets => exact nofun
  | _ => exact hi

theorem oneHolderInv_of_keepsQueue (hi : OneHolderInv s) (hb : KeepsQueue s.bridge t.bridge) : OneHolderInv t := by
  rw [OneHolderInv, hb.held, hb.others]
  exact hi

theorem advances_oneHolderInv (he : acquireReply s = true → s.bridge.others = []) (hi : OneHolderInv s)
    (h : Advances s t) : OneHolderInv t := by
  cases h with
  | goes _ _ hb => exact oneHolderInv_of_keepsQueue hi hb
  | acquires _ _ hr => simp [OneHolderInv, he hr]
  | releases =>
    exact le_trans (show s.bridge.others.length ≤ _ from hi) (by split <;> simp [releaseBridge, bridgeAfterCtrl])
  | _ => exact hi

theorem step_oneHolderInv (he : ExclusiveHold s) (hi : OneHolderInv s)
    (hr : ¬ (s.turn = .env ∧ nextEvent s = .reset ∧ s.busy = true)) (h : step s = .next t) : OneHolderInv t := by
  obtain ⟨hacq, hother⟩ := he
  cases step_moves h with
  | advances _ _ _ hu => exact (advances_oneHolderInv hacq hi hu : OneHolderInv _)
  | runs _ hb => exact oneHolderInv_of_keepsQueue hi hb
  | shares ht hev =>
    obtain ⟨hfree, hone⟩ := hother ht _ hev
    simpa [OneHolderInv, hfree] using hone
  | resets ht hev =>
    have hb : s.busy = false := Bool.eq_false_of_not_eq_true fun hb => hr ⟨ht, hev, hb⟩
    simpa [OneHolderInv, resetInput, hb] using hi
  | _ => exact hi

/-- While this session holds the bridge the environment brings response bytes to it and does nothing else. -/
theorem step_env_bridge (hu : Undisturbed s) (ht : s.turn = .env) (hr : ¬ (nextEvent s = .reset ∧ s.busy = true))
    (h : step s = .next t) :
    t.bridge = { s.bridge with rxq := t.bridge.rxq, resp := t.bridge.resp } ∧ s.bridge.rxq <+: t.bridge.rxq := by
  cases step_moves h with
  | serves _ hx => exact ⟨rfl, hx⟩
  | shares _ he => exact absurd he (hu ht _)
  | resets _ he =>
    have hb : s.busy = false := Bool.eq_false_of_not_eq_true fun hb => hr ⟨he, hb⟩
    simp [resetInput, hb]
  | _ => simp_all

end

/-- Settles O50: HANDLE and SESS are followed along the positions of each operation (`step_blockInv`), the hold along its
acquisition and its release; what the duty gives is that no other session acts. -/
theorem handleFollowsSession : Obligations.HandleFollowsSession := by
  refine ⟨fun s t => step_blockInv, fun s => BlockInv.handle_iff, fun s t => step_holdInv,
    fun s t => step_oneHolderInv, ?touch, ?other⟩
  case touch =>
    intro s t he hi hh ht hr h
    exact step_env_bridge (undisturbed_of_held he (hi hh)) ht hr h
  case other =>
    intro s b ht he
    obtain ⟨n, d, hs⟩ := takeEvent_eq s
    rw [step_env ht, he, hs]
    rfl

/-! ## Who writes what -/

section
variable {s t : State}

theorem advances_sess (h : Advances s t) : t.sess = s.sess ∨
    s.op = .openOp ∧ s.seq = .oDone ∧ t.sess = .opened ∧ t.resOk = true ∨
    s.op = .closeOp ∧ s.seq = .cDone ∧ t.sess = .closed ∧ t.resOk = true := by
  cases h with
  | opens ho hq => exact .inr (.inl ⟨ho, hq, rfl, rfl⟩)
  | closes ho hq => exact .inr (.inr ⟨ho, hq, rfl, rfl⟩)
  | _ => exact .inl rfl

theorem advances_addr (h : Advances s t) : t.addr = s.addr ∨ s.seq = .oDone ∨ s.seq = .aSet := by
  cases h with
  | opens _ hq => exact .inr (.inl hq)
  | rebinds _ hq => exact .inr (.inr hq)
  | _ => exact .inl rfl

theorem advances_cb (h : Advances s t) :
    t.cb = s.cb ∨ (s.op = .rdRegOp ∨ s.op = .wrRegOp) ∧ s.seq = .tBuild .clear := by
  cases h with
  | clears ho hq => exact .inr ⟨ho, hq⟩
  | _ => exact .inl rfl

theorem advances_nak (h : Advances s t) : (t.nak0 = s.nak0 ∧ t.nak1 = s.nak1 ∧ t.nak2 = s.nak2) ∨
    (s.op = .rdRegOp ∨ s.op = .wrRegOp) ∧ s.seq = .tValid ∧ t.busy = false := by
  cases h with
  | validates ho hq => exact .inr ⟨ho, hq, rfl⟩
  | _ => exact .inl ⟨rfl, rfl, rfl⟩

section
variable (h : step s = .next t) (hr : ¬ (s.turn = .env ∧ nextEvent s = .reset))
include h hr

/-- SESS is written by the last acts of OPEN and CLOSE (R21, R134, R137). -/
theorem step_sess : t.sess = s.sess ∨
    s.busy = true ∧ s.op = .openOp ∧ s.seq = .oDone ∧ t.sess = .opened ∧ t.resOk = true ∨
    s.busy = true ∧ s.op = .closeOp ∧ s.seq = .cDone ∧ t.sess = .closed ∧ t.resOk = true := by
  cases step_moves h with
  | advances _ hb _ hu => exact (advances_sess hu).imp_right (Or.imp (.intro hb) (.intro hb))
  | resets ht he => exact absurd ⟨ht, he⟩ hr
  | _ => exact .inl rfl

/-- ADDR is written by the last act of OPEN and by SETADDR (R23, R134, R139). -/
theorem step_addr : t.addr = s.addr ∨ s.busy = true ∧ (s.seq = .oDone ∨ s.seq = .aSet) := by
  cases step_moves h with
  | advances _ hb _ hu => exact (advances_addr hu).imp_right (.intro hb)
  | resets ht he => exact absurd ⟨ht, he⟩ hr
  | _ => exact .inl rfl

/-- CB is written by the build of a transaction (R25). -/
theorem step_cb : t.cb = s.cb ∨ s.busy = true ∧ (s.op = .rdRegOp ∨ s.op = .wrRegOp) ∧ ∃ p, s.seq = .tBuild p := by
  cases step_moves h with
  | builds _ hb _ hq hi => exact .inr ⟨hb, primitiveAt_op hi, _, hq⟩
  | advances _ hb _ hu => exact (advances_cb hu).imp_right fun ⟨ho, hq⟩ => ⟨hb, ho, _, hq⟩
  | resets ht he => exact absurd ⟨ht, he⟩ hr
  | _ => exact .inl rfl

/-- RXBUF is written by the retrieval of a poll (R26). -/
theorem step_rxbuf : t.rxbuf = s.rxbuf ∨ s.busy = true ∧ pollsHere s = true ∧ ∃ m, s.pollAt = .retrieve m := by
  cases step_moves h with
  | retrieves _ hb hp ha => exact .inr ⟨hb, hp, _, ha⟩
  | advances _ _ _ hu => exact .inl (advances_keepsLatches hu).rxbuf
  | resets ht he => exact absurd ⟨ht, he⟩ hr
  | _ => exact .inl rfl

/-- OP and the operand latches are written by the acceptance of a legal word (R27, R93). -/
theorem step_latches :
    (t.op = s.op ∧ t.aAddr = s.aAddr ∧ t.aReg = s.aReg ∧ t.aVal = s.aVal ∧ t.aCnt = s.aCnt) ∨
      s.turn = .controller ∧ s.busy = false ∧ t.busy = true ∧ ∃ w i, s.port = some w ∧ decodeHost w = .ok i := by
  cases step_moves h with
  | accepts ht hb hp hd => exact .inr ⟨ht, hb, rfl, _, _, hp, hd⟩
  | advances _ _ _ hu =>
    have hk := advances_keepsLatches hu
    exact .inl ⟨hk.op, hk.aAddr, hk.aReg, hk.aVal, hk.aCnt⟩
  | resets ht he => exact absurd ⟨ht, he⟩ hr
  | _ => exact .inl ⟨rfl, rfl, rfl, rfl, rfl⟩

/-- NAK is written by the validator of a transaction, which ends it (R33, R178). -/
theorem step_nak : (t.nak0 = s.nak0 ∧ t.nak1 = s.nak1 ∧ t.nak2 = s.nak2) ∨
    s.turn = .controller ∧ s.busy = true ∧ (s.op = .rdRegOp ∨ s.op = .wrRegOp) ∧ s.seq = .tValid ∧ t.busy = false := by
  cases step_moves h with
  | advances ht hb _ hu => exact (advances_nak hu).imp_right fun hw => ⟨ht, hb, hw⟩
  | resets ht he => exact absurd ⟨ht, he⟩ hr
  | _ => exact .inl ⟨rfl, rfl, rfl⟩

end
end

/-- Settles O53: register by register, a write is at the position that may make it. -/
theorem registersHaveTheirWriters : Obligations.RegistersHaveTheirWriters := by
  intro s t _ h hr
  refine ⟨?opened, ?closed, (step_addr h hr).resolve_left, (step_cb h hr).resolve_left, (step_rxbuf h hr).resolve_left,
    ?latches, ?nak⟩
  case opened =>
    intro hs hs'
    obtain hx | ⟨hb, ho, hq, -, hok⟩ | ⟨-, -, -, hx, -⟩ := step_sess h hr
    · simp [hx, hs] at hs'
    · exact ⟨hb, ho, hq, hok⟩
    · simp [hx] at hs'
  case closed =>
    intro hs hs'
    obtain hx | ⟨-, -, -, hx, -⟩ | ⟨hb, ho, hq, -, hok⟩ := step_sess h hr
    · simp [hx, hs] at hs'
    · simp [hx] at hs'
    · exact ⟨hb, ho, hq, hok⟩
  case latches => exact fun hw => (step_latches h hr).resolve_left (by tauto)
  case nak => exact fun hw => (step_nak h hr).resolve_left (by tauto)

end Sys2Proof.Machine
end

section
/-! Steps by what is fetched, their completion, the reset, acceptance, and the validators of the two transactions. -/

namespace Sys2Proof.Machine

/-! ## What each agent fetches -/

section
variable {s t : State}

theorem step_of_no_word (ht : s.turn = .controller) (hb : s.busy = false) (hp : s.port = none) :
    step s = .next (endTurn s) := by
  simp [step_controller ht, controllerTurn, fetch, hb, fetchIdle, hp]

theorem step_of_illegal_word {w : HostWord} {e : HostReject} (ht : s.turn = .controller) (hb : s.busy = false)
    (hp : s.port = some w) (hd : decodeHost w = .error e) :
    step s = .next (endTurn (takeWord (failIllegal w s))) := by
  simp [step_controller ht, controllerTurn, fetch, hb, fetchIdle, hp, hd]

theorem step_of_legal_word {w : HostWord} {i : Instr} (ht : s.turn = .controller) (hb : s.busy = false)
    (hp : s.port = some w) (hd : decodeHost w = .ok i) :
    step s = mapNext (fun t => endTurn (takeWord t)) (exec i s) := by
  simp [step_controller ht, controllerTurn, fetch, hb, fetchIdle, hp, hd]

theorem step_of_command {i : Instr} {rest : List Byte} (ht : s.turn = .bridge)
    (hd : decodeBridge s.bridge.cmdq = .ok (i, rest)) :
    step s = mapNext (fun t => endTurn (takeCommand rest t)) (exec i s) := by
  rw [step_bridge ht, bridgeTurn, hd]

theorem pollsHere_of_tBuild {p : BuildPos} (hq : s.seq = .tBuild p) : pollsHere s = false := by
  cases ho : s.op <;> simp [pollsHere, ho, hq]

theorem step_at_primitive {p : BuildPos} {i : Instr} (ht : s.turn = .controller) (hb : s.busy = true)
    (hq : s.seq = .tBuild p) (hi : primitiveAt s p = some i) :
    step s = mapNext (fun t => endTurn (afterPrimitive t)) (exec i s) := by
  simp [step_controller ht, controllerTurn, fetch, hb, fetchBusy, pollsHere_of_tBuild hq, hq, hi]

theorem step_at_poll (ht : s.turn = .controller) (hb : s.busy = true) (hp : pollsHere s = true) :
    step s = mapNext (fun t => endTurn (if pollEnds s then afterPoll t else t)) (exec (.poll s.expect) s) := by
  simp [step_controller ht, controllerTurn, fetch, hb, fetchBusy, hp]

theorem step_at_operation (ht : s.turn = .controller) (hb : s.busy = true) (hp : pollsHere s = false)
    (hi : ∀ p, s.seq = .tBuild p → primitiveAt s p = none) :
    step s = mapNext endTurn (exec (inProgress s) s) := by
  rw [step_controller ht, controllerTurn, fetch, hb, if_pos rfl, fetchBusy_of_operation hp hi]

end

/-- Settles O9: one equation for each kind of fetch. -/
theorem stepRunsFetchedInstruction : Obligations.StepRunsFetchedInstruction :=
  ⟨fun _ _ _ => step_of_legal_word, fun _ _ _ => step_of_command, fun _ _ _ => step_at_primitive,
    fun _ => step_at_poll, fun _ => step_at_operation⟩

/-! ## Completion -/

section
variable {s t : State}

/-- Every position of OPEN but its polls has an action. -/
theorem advanceOpen_completes (ho : s.op = .openOp) (hq : inProgram s.op s.seq = true) (hp : pollsHere s = false) :
    ∃ t, advanceOpen s.aAddr s = .next t := by
  cases hs : s.seq <;> simp_all [inProgram, pollsHere, advanceOpen]

theorem advanceClose_completes (ho : s.op = .closeOp) (hq : inProgram s.op s.seq = true) :
    ∃ t, advanceClose s = .next t := by
  cases hs : s.seq <;> simp_all [inProgram, advanceClose]

theorem advanceSetAddr_completes (ho : s.op = .setAddrOp) (hq : inProgram s.op s.seq = true) :
    ∃ t, advanceSetAddr s.aAddr s = .next t := by
  cases hs : s.seq <;> simp_all [inProgram, advanceSetAddr]

/-- Of a build only the first position is an action; the others run primitives. -/
theorem buildPos_eq_clear {p : BuildPos} (hq : inProgram s.op (.tBuild p) = true) (hi : primitiveAt s p = none) :
    p = .clear := by
  cases ho : s.op <;> cases p <;> simp_all [inProgram, primitiveAt]

theorem advanceRdReg_completes (ho : s.op = .rdRegOp) (hq : inProgram s.op s.seq = true) (hp : pollsHere s = false)
    (hi : ∀ p, s.seq = .tBuild p → primitiveAt s p = none) : ∃ t, advanceRdReg s.aCnt s = .next t := by
  cases hs : s.seq
  case tBuild p =>
    obtain rfl := buildPos_eq_clear (hs ▸ hq) (hi p hs)
    simp [advanceRdReg, hs]
  all_goals simp_all [inProgram, pollsHere, advanceRdReg]

theorem advanceWrReg_completes (ho : s.op = .wrRegOp) (hq : inProgram s.op s.seq = true) (hp : pollsHere s = false)
    (hi : ∀ p, s.seq = .tBuild p → primitiveAt s p = none) : ∃ t, advanceWrReg s = .next t := by
  cases hs : s.seq
  case tBuild p =>
    obtain rfl := buildPos_eq_clear (hs ▸ hq) (hi p hs)
    simp [advanceWrReg, hs]
  all_goals simp_all [inProgram, pollsHere, advanceWrReg]

/-- A position of the operation in progress that runs neither a poll nor a primitive has an action. -/
theorem advance_completes (hq : inProgram s.op s.seq = true) (hp : pollsHere s = false)
    (hi : ∀ p, s.seq = .tBuild p → primitiveAt s p = none) : ∃ t, advance s = .next t := by
  unfold advance
  split <;> rename_i ho
  · exact advanceOpen_completes ho hq hp
  · exact advanceClose_completes ho hq
  · exact advanceSetAddr_completes ho hq
  · exact advanceRdReg_completes ho hq hp hi
  · exact advanceWrReg_completes ho hq hp hi

theorem execPoll_completes (n : Nat) (s : State) : ∃ t, execPoll n s = .next t := by
  unfold execPoll
  split <;> exact ⟨_, rfl⟩

/-- A controller whose operation is at a position of its own has a next state. -/
theorem step_busy_completes (ht : s.turn = .controller) (hb : s.busy = true) (hq : inProgram s.op s.seq = true) :
    ∃ t, step s = .next t := by
  cases hp : pollsHere s
  · by_cases hi : ∀ p, s.seq = .tBuild p → primitiveAt s p = none
    · obtain ⟨u, hu⟩ := advance_completes hq hp hi
      exact ⟨_, step_of_advance ht hb hp hi hu⟩
    · push Not at hi
      obtain ⟨p, hs, hi⟩ := hi
      obtain ⟨i, hi⟩ := Option.ne_none_iff_exists'.1 hi
      obtain ⟨bs, hx⟩ := exec_primitiveAt hi
      exact ⟨_, step_of_primitive ht hb hs hi hx⟩
  · obtain ⟨u, hu⟩ := execPoll_completes s.expect s
    exact ⟨_, step_of_poll ht hb hp hu⟩

/-- An idle controller has a next state, whatever stands at its port. -/
theorem step_idle_completes (ht : s.turn = .controller) (hb : s.busy = false) : ∃ t, step s = .next t := by
  cases hp : s.port with
  | none => exact ⟨_, step_of_no_word ht hb hp⟩
  | some w =>
    cases hd : decodeHost w with
    | error e => exact ⟨_, step_of_illegal_word ht hb hp hd⟩
    | ok i =>
      obtain ⟨o, v, hx⟩ := exec_hostOperation_idle (decodeHost_level hd) hb
      exact ⟨_, by rw [step_of_legal_word ht hb hp hd, hx, mapNext_next]⟩

end

/-- Settles O49: the controller by where it is, the bridge and the environment always. -/
theorem noStepStops : Obligations.NoStepStops := by
  intro s hs
  cases ht : s.turn with
  | controller =>
    cases hb : s.busy
    · exact step_idle_completes ht hb
    · exact step_busy_completes ht hb (by simpa [SequencerInv, hb] using hs)
  | bridge => exact step_bridge ht ▸ bridgeTurn_completes s
  | env => exact ⟨_, step_env ht⟩

/-! ## Reset -/

/-- Settles O52: the reset block is idle, and nothing has been sent. -/
theorem invariantsHoldAtReset : Obligations.InvariantsHoldAtReset := by
  have hbuild : BuildInv State.reset := buildInv_of_idle rfl
  exact ⟨blockInv_of_idle rfl rfl (by decide), nofun, Nat.zero_le 1, pollInv_of_idle rfl (Nat.zero_le _),
    expectInv_of_not_sent rfl, hbuild, hbuild, nofun⟩

/-- The reset keeps the bridge of an idle block. -/
theorem resetInput_bridge_of_idle {s : State} (hb : s.busy = false) : (resetInput s).bridge = s.bridge := by
  simp [resetInput, hb]

/-- Settles O59: the step is the reset of the block with the event used up. -/
theorem resetIsSilent : Obligations.ResetIsSilent := by
  intro s ht he
  obtain ⟨n, d, hs⟩ := takeEvent_eq s
  have h : step s = .next (resetInput { s with inputs := n, draws := d }) := by rw [step_env ht, he, hs]; rfl
  exact ⟨_, h, rfl, rfl, rfl, rfl, rfl, rfl, rfl, rfl, rfl, rfl, rfl, rfl, rfl, rfl, rfl,
    fun hb => resetInput_bridge_of_idle (s := { s with inputs := n, draws := d }) hb⟩

/-- Settles O60: each value is the one `State.reset` is written with. -/
theorem resetStateHasSpecValues : Obligations.ResetStateHasSpecValues :=
  ⟨rfl, rfl, rfl, rfl, rfl, rfl, rfl, rfl, rfl, rfl, rfl, rfl, rfl⟩

/-! ## Acceptance -/

/-- Settles O10: the operation is accepted as that of its word's OPC, and the latches are the word's fields. -/
theorem acceptanceLoadsLatches : Obligations.AcceptanceLoadsLatches := by
  intro i w o s hb hw ho
  rw [exec_of_idle hb hw ho.symm]
  cases o <;> rfl

/-! ## The validators -/

section
variable {s : State} {o : HostOp} {isRead : Bool} {b0 b1 b2 : Byte} {rest : List Byte}

theorem lengthCheck_strict_wrong {n m : Nat} (h : m ≠ n) : lengthCheck .strict n m = .wrong := by
  simp [lengthCheck, h]

theorem lengthCheck_of_usable {p : ShortReadPolicy} {n m : Nat} (h3 : 3 ≤ m) (h258 : m ≤ 258)
    (hp : p = .strict → m = n) : lengthCheck p n m = .usable := by
  rw [lengthCheck, if_neg fun h => h.1 (hp h.2), if_neg (by omega)]

/-- Under STRICT a retrieval of another length fails on it, and NAK keeps its value (R178, R205). -/
theorem validate_wrong_length (ho : s.op = o) (hp : s.cfg.policy = .strict) (hl : s.rxbuf.length ≠ s.expect) :
    validate isRead s = report false .length o.opc [] s := by
  rw [validate, hp, State.rxlen, lengthCheck_strict_wrong hl]
  exact fail_of_op ho

theorem recordNak_cons (hx : s.rxbuf = b0 :: b1 :: b2 :: rest) :
    recordNak s = { s with nak0 := b0.getLsbD 0, nak1 := b1.getLsbD 0, nak2 := b2.getLsbD 0 } := by
  rw [recordNak, hx]
  rfl

/-- The acknowledgement check by the three bits it reads (R178). -/
theorem checkAcks_cons {data : List Byte} (ho : s.op = o) (hx : s.rxbuf = b0 :: b1 :: b2 :: rest) :
    checkAcks data s =
      if b0.getLsbD 0 || b1.getLsbD 0 || b2.getLsbD 0 then
        report false .ack o.opc [] { s with nak0 := b0.getLsbD 0, nak1 := b1.getLsbD 0, nak2 := b2.getLsbD 0 }
      else report true .none o.opc data { s with nak0 := false, nak1 := false, nak2 := false } := by
  have hn : anyNak s.rxbuf = (b0.getLsbD 0 || b1.getLsbD 0 || b2.getLsbD 0) := by rw [hx, anyNak_cons]
  rw [checkAcks, hn, recordNak_cons hx, ← ho]
  split <;> rename_i h
  · rfl
  · simp only [Bool.or_eq_true, not_or, Bool.not_eq_true] at h
    obtain ⟨⟨h0, h1⟩, h2⟩ := h
    rw [h0, h1, h2]
    rfl

/-- A usable retrieval goes on to the acknowledgement check, with what follows the three status bytes for a read. -/
theorem validate_usable (hx : s.rxbuf = b0 :: b1 :: b2 :: rest) (hr : rest.length ≤ 255)
    (hp : s.cfg.policy = .strict → s.rxbuf.length = s.expect) :
    validate isRead s = checkAcks (if isRead then rest else []) s := by
  have hl : s.rxbuf.length = rest.length + 3 := by rw [hx]; rfl
  have hd : s.rxbuf.drop 3 = rest := by rw [hx]; rfl
  rw [validate, State.rxlen, lengthCheck_of_usable (by omega) (by omega) hp, hd]

theorem inProgress_eq_rdReg {r n : Byte} : inProgress s = .rdReg r n ↔ s.op = .rdRegOp ∧ s.aReg = r ∧ s.aCnt = n := by
  cases ho : s.op <;> simp [inProgress, ho]

theorem inProgress_eq_wrReg {r v : Byte} : inProgress s = .wrReg r v ↔ s.op = .wrRegOp ∧ s.aReg = r ∧ s.aVal = v := by
  cases ho : s.op <;> simp [inProgress, ho]

theorem exec_rdReg_validates {r n : Byte} (hb : s.busy = true) (hi : inProgress s = .rdReg r n) (hq : s.seq = .tValid) :
    exec (.rdReg r n) s = .next (validate true s) := by
  have h : exec (.rdReg r n) s = advanceRdReg n s := hostOperation_of_inProgress hb hi
  rw [h, advanceRdReg, hq]

theorem exec_wrReg_validates {r v : Byte} (hb : s.busy = true) (hi : inProgress s = .wrReg r v) (hq : s.seq = .tValid) :
    exec (.wrReg r v) s = .next (validate false s) := by
  have h : exec (.wrReg r v) s = advanceWrReg s := hostOperation_of_inProgress hb hi
  rw [h, advanceWrReg, hq]

end

/-- Settles O23: the validator by the length, then by the three bits. -/
theorem writeValidatesThreeAcks : Obligations.WriteValidatesThreeAcks := by
  intro r v s hb hi hq
  obtain ⟨ho, -⟩ := inProgress_eq_wrReg.1 hi
  rw [exec_wrReg_validates hb hi hq]
  refine ⟨?length, ?acks⟩
  case length =>
    intro hp hl
    rw [validate_wrong_length ho hp hl]
    rfl
  case acks =>
    intro b0 b1 b2 rest hx hr hp
    rw [validate_usable hx hr hp, if_neg Bool.false_ne_true, checkAcks_cons ho hx]
    split <;> rfl

/-- Settles O24: likewise, and a success returns what follows the three bytes. -/
theorem readValidatesAndStripsAcks : Obligations.ReadValidatesAndStripsAcks := by
  intro r n s hb hi hq
  obtain ⟨ho, -⟩ := inProgress_eq_rdReg.1 hi
  rw [exec_rdReg_validates hb hi hq]
  refine ⟨?length, ?acks⟩
  case length =>
    intro hp hl
    rw [validate_wrong_length ho hp hl]
    rfl
  case acks =>
    intro b0 b1 b2 data hx hr hp
    have hword : rspWord true .none HostOp.rdRegOp.opc (BitVec.ofNat 8 data.length) =
        BitVec.ofNat 32 (0x41 + 256 * data.length) := by
      rw [rspWord_rdReg_ok, BitVec.toNat_ofNat, Nat.mod_eq_of_lt (Nat.lt_succ_of_le hr)]
    rw [validate_usable hx hr hp, checkAcks_cons ho hx, ← hword]
    split <;> rfl

end Sys2Proof.Machine
end

section
/-! The response queue from both ends: a poll that finds more bytes in it than it expects, and the bridge commands that
produce a byte and make the produced bytes visible. -/

namespace Sys2Proof.Machine

/-! ## A poll above its count -/

section
variable {s t : State}

/-- A controller in a poll's loop takes one sample, and the poll has not ended. -/
theorem step_sampling (ht : s.turn = .controller) (hb : s.busy = true) (hp : pollsHere s = true)
    (ha : s.pollAt = .sample) : step s = .next (endTurn (pollSample s.expect s)) := by
  rw [step_at_poll ht hb hp, exec, execPoll_sample ha, mapNext_next, pollEnds, ha, if_neg Bool.false_ne_true]

/-- But for a reset and another session, what the bridge and the environment do reaches the block at its port only, and
leaves every queued byte in its place (R64, R221). -/
theorem step_other_agent (hu : Undisturbed s) (ht : s.turn ≠ .controller)
    (hr : ¬ (s.turn = .env ∧ nextEvent s = .reset)) (h : step s = .next t) :
    ∃ b e n d q p, t = { s with bridge := b, bus := e, inputs := n, draws := d, turn := q, port := p } ∧
      s.bridge.rxq <+: b.rxq := by
  cases step_moves h with
  | runs _ hb => exact ⟨_, _, _, _, _, _, rfl, hb.rxq⟩
  | serves _ hx => exact ⟨_, _, _, _, _, _, rfl, hx⟩
  | shares ht' he => exact absurd he (hu ht' _)
  | resets ht' he => exact absurd ⟨ht', he⟩ hr
  | waits hc | rejects hc | accepts hc | polls hc | retrieves hc | builds hc | advances hc => exact absurd hc ht

end

/-- Settles O37: the controller's sample misses or finds the loop exhausted, since the queue is longer than EXPECT, and
another agent's step only adds to the queue (`step_other_agent`). -/
theorem pollNeverMatchesAboveItsCount : Obligations.PollNeverMatchesAboveItsCount := by
  intro s t hu h hb hp ha hq hr
  by_cases ht : s.turn = .controller
  case pos =>
    obtain rfl : endTurn (pollSample s.expect s) = t := by simpa [step_sampling ht hb hp ha] using h
    obtain hc | hc := Nat.lt_or_ge s.pollcnt.toNat 1000000
    · have hn : (s.pollcnt + 1#20).toNat = s.pollcnt.toNat + 1 := by bv_omega
      rw [pollSample_miss hc (Nat.ne_of_gt hq)]
      exact ⟨hb, hp, rfl, le_rfl, fun _ _ => ⟨ha, hn⟩, fun _ hc' => absurd hc (Nat.not_lt.2 hc'), absurd ht⟩
    · rw [pollSample_exhausted hc]
      exact ⟨hb, hp, rfl, le_rfl, fun _ hc' => absurd hc' (Nat.not_lt.2 hc), fun _ _ => ⟨rfl, rfl⟩, absurd ht⟩
  case neg =>
    obtain ⟨b, e, n, d, q, p, rfl, hx⟩ := step_other_agent hu ht hr h
    exact ⟨hb, hp, rfl, hx.length_le, fun hc => absurd hc ht, fun hc => absurd hc ht, fun _ => ⟨ha, rfl⟩⟩

/-! ## Sampling a byte -/

/-- One sampled level shifted into a byte from the right (R225). -/
def shiftLevel (acc : Byte) (l : Bool) : Byte := (acc <<< 1) ||| (BitVec.ofBool l).setWidth 8

@[simp] theorem getElem_shiftLevel_zero (acc : Byte) (l : Bool) : (shiftLevel acc l)[0] = l := by
  simp [shiftLevel]

@[simp] theorem getElem_shiftLevel_succ (acc : Byte) (l : Bool) {i : Nat} (hi : i + 1 < 8) :
    (shiftLevel acc l)[i + 1] = acc[i] := by
  simp [shiftLevel]

theorem sampleBits_succ (k : Nat) (acc : Byte) (s : State) :
    sampleBits (k + 1) acc s = sampleBits k (shiftLevel acc (sdaLevel s)) (takeLevel s) := rfl

/-- Eight levels shifted in, most significant first, are the byte, whatever was in the register (R225). -/
theorem foldl_shiftLevel_levelsOf (acc b : Byte) : (levelsOf b).foldl shiftLevel acc = b := by
  refine BitVec.eq_of_getElem_eq fun i hi => ?_
  simp only [levelsOf, List.foldl_cons, List.foldl_nil]
  interval_cases i <;> simp

section
variable {s : State} {l : Bool} {ls : List Bool}

theorem sdaLevel_released (hd : s.bridge.dir.getLsbD 1 = false) (hl : s.inputs.levels = l :: ls) :
    sdaLevel s = l := by
  rw [sdaLevel, drivesSda, hd, if_neg Bool.false_ne_true, hl]

theorem takeLevel_released (hd : s.bridge.dir.getLsbD 1 = false) (hl : s.inputs.levels = l :: ls) :
    takeLevel s = { s with inputs := { s.inputs with levels := ls } } := by
  rw [takeLevel, drivesSda, hd, if_neg Bool.false_ne_true, hl]

/-- With SDA released, sampling shifts in the decided levels in order and uses them up (R224, R225). -/
theorem sampleBits_released {us : List Bool} (acc : Byte) (hd : s.bridge.dir.getLsbD 1 = false)
    (hl : s.inputs.levels = us ++ ls) :
    sampleBits us.length acc s = (us.foldl shiftLevel acc, { s with inputs := { s.inputs with levels := ls } }) := by
  induction us generalizing acc s with
  | nil =>
    obtain rfl : s.inputs.levels = ls := hl
    rfl
  | cons u us ih =>
    rw [List.length_cons, sampleBits_succ, sdaLevel_released hd hl, takeLevel_released hd hl]
    exact ih (shiftLevel acc u) hd rfl

end

/-- Settles O42: sampling touches the inputs and the draws only (`sampleBits_eq`), and the levels of a byte are shifted
together to that byte (`sampleBits_released`, `foldl_shiftLevel_levelsOf`). -/
theorem byteInQueuesEightSamples : Obligations.ByteInQueuesEightSamples := by
  refine fun s => ⟨?any, ?decided⟩
  case any =>
    obtain ⟨n, d, hs⟩ := sampleBits_eq 8 0x00#8 s
    refine ⟨(sampleBits 8 0x00#8 s).1, n, d, ?_⟩
    rw [exec, execByteIn, hs]
    rfl
  case decided =>
    intro b ls hd hl
    have hs : sampleBits 8 0x00#8 s = _ := sampleBits_released 0x00#8 hd hl
    rw [exec, execByteIn, hs, foldl_shiftLevel_levelsOf]
    rfl

/-! ## Visible responses -/

/-- Settles O44: SEND_NOW is the flush of the produced bytes, in its own step (log 12). -/
theorem sendNowMakesResponsesVisible : Obligations.SendNowMakesResponsesVisible := fun _ => rfl

end Sys2Proof.Machine
end

section
/-! Host words by their fields, whatever these hold: the rows of R94, the illegal words, and the round trips of the
encoding. -/

namespace Sys2Proof

/-! ## The fields of any word -/

@[simp] theorem hostRsv_hostWordOf (o : BitVec 4) (c r a : Byte) : hostRsv (hostWordOf o c r a) = 0#4 := by
  refine BitVec.eq_of_toNat_eq ?_
  simp [hostRsv, toNat_hostWordOf, Nat.shiftRight_eq_div_pow]
  omega

theorem toNat_hostWord (w : HostWord) :
    w.toNat = (hostOpc w).toNat * 2 ^ 28 + (hostRsv w).toNat * 2 ^ 24 + (hostCnt w).toNat * 2 ^ 16 +
      (hostReg w).toNat * 2 ^ 8 + (hostArg w).toNat := by
  simp [hostOpc, hostRsv, hostCnt, hostReg, hostArg, Nat.shiftRight_eq_div_pow]
  omega

@[simp] theorem and_0xFF (b : Byte) : b &&& 0xFF#8 = b := BitVec.and_allOnes

theorem and_0x80_eq_zero_iff (b : Byte) : b &&& 0x80#8 = 0#8 ↔ b.getLsbD 7 = false := by
  have h : b.getLsbD 7 = b.msb := rfl
  rw [h, show 0x80#8 = BitVec.twoPow 8 7 from rfl, BitVec.and_twoPow, ← h]
  cases b.getLsbD 7 <;> simp

section
variable {w x y m p : HostWord}

/-- The fields of R92 are the whole word. -/
theorem hostWord_ext_iff :
    x = y ↔ hostOpc x = hostOpc y ∧ hostRsv x = hostRsv y ∧ hostCnt x = hostCnt y ∧ hostReg x = hostReg y ∧
      hostArg x = hostArg y := by
  constructor
  · rintro rfl
    exact ⟨rfl, rfl, rfl, rfl, rfl⟩
  · rintro ⟨ho, hv, hc, hr, ha⟩
    refine BitVec.eq_of_toNat_eq ?_
    rw [toNat_hostWord x, toNat_hostWord y, ho, hv, hc, hr, ha]

/-- A test by match and mask works field by field. -/
theorem hostWord_and_eq_iff :
    w &&& m = p ↔
      hostOpc w &&& hostOpc m = hostOpc p ∧ hostRsv w &&& hostRsv m = hostRsv p ∧ hostCnt w &&& hostCnt m = hostCnt p ∧
        hostReg w &&& hostReg m = hostReg p ∧ hostArg w &&& hostArg m = hostArg p := by
  rw [hostWord_ext_iff]
  simp only [hostOpc, hostRsv, hostCnt, hostReg, hostArg, BitVec.extractLsb'_and]

/-- With ARG[7] = 0, ARG is the address. -/
theorem setWidth_hostAddr (h : (hostArg w).getLsbD 7 = false) : (hostAddr w).setWidth 8 = hostArg w := by
  refine BitVec.eq_of_getLsbD_eq fun i hi => ?_
  obtain hi' | rfl : i < 7 ∨ i = 7 := by omega
  · simp [hostAddr, hostArg, hi, hi']
  · rw [h]
    simp [hostAddr]

end

/-! ## The rows of R94 -/

/-- The row of R94 a word selects by its match and mask, with the free fields of the row. -/
inductive SelectsRow (w : HostWord) : Instr → Prop
  | openSession (h : w &&& 0xFFFFFF80#32 = 0x10000000#32) : SelectsRow w (.openSession (hostAddr w))
  | closeSession (h : w &&& 0xFFFFFFFF#32 = 0x20000000#32) : SelectsRow w .closeSession
  | setAddr (h : w &&& 0xFFFFFF80#32 = 0x30000000#32) : SelectsRow w (.setAddr (hostAddr w))
  | rdReg (h : w &&& 0xFF0000FF#32 = 0x40000000#32) : SelectsRow w (.rdReg (hostReg w) (hostCnt w))
  | wrReg (h : w &&& 0xFFFF0000#32 = 0x50000000#32) : SelectsRow w (.wrReg (hostReg w) (hostArg w))

section
variable {w m p : HostWord} {i : Instr}

/-- The test of a row whose mask covers OPC and RSV, as each mask of R94 does, by fields. -/
theorem rowTest_iff {o : BitVec 4} (ho : hostOpc m = 0xF#4) (hv : hostRsv m = 0xF#4) :
    w &&& m = hostWordOf o 0#8 0#8 0#8 ↔
      hostOpc w = o ∧ hostRsv w = 0#4 ∧ hostCnt w &&& hostCnt m = 0#8 ∧ hostReg w &&& hostReg m = 0#8 ∧
        hostArg w &&& hostArg m = 0#8 := by
  have ones : ∀ x : BitVec 4, x &&& 0xF#4 = x := fun _ => BitVec.and_allOnes
  simp [hostWord_and_eq_iff, ho, hv, ones]

theorem addressRow_iff (o : BitVec 4) :
    w &&& 0xFFFFFF80#32 = hostWordOf o 0#8 0#8 0#8 ↔
      hostOpc w = o ∧ hostRsv w = 0#4 ∧ hostCnt w = 0#8 ∧ hostReg w = 0#8 ∧ (hostArg w).getLsbD 7 = false := by
  have h : w &&& 0xFFFFFF80#32 = hostWordOf o 0#8 0#8 0#8 ↔
      _ ∧ _ ∧ hostCnt w &&& 0xFF#8 = 0#8 ∧ hostReg w &&& 0xFF#8 = 0#8 ∧ hostArg w &&& 0x80#8 = 0#8 :=
    rowTest_iff rfl rfl
  simpa only [and_0xFF, and_0x80_eq_zero_iff] using h

theorem closeRow_iff :
    w &&& 0xFFFFFFFF#32 = 0x20000000#32 ↔
      hostOpc w = 0x2#4 ∧ hostRsv w = 0#4 ∧ hostCnt w = 0#8 ∧ hostReg w = 0#8 ∧ hostArg w = 0#8 := by
  have h : w &&& 0xFFFFFFFF#32 = 0x20000000#32 ↔
      _ ∧ _ ∧ hostCnt w &&& 0xFF#8 = 0#8 ∧ hostReg w &&& 0xFF#8 = 0#8 ∧ hostArg w &&& 0xFF#8 = 0#8 :=
    rowTest_iff (o := 0x2#4) rfl rfl
  simpa only [and_0xFF] using h

theorem rdRegRow_iff :
    w &&& 0xFF0000FF#32 = 0x40000000#32 ↔ hostOpc w = 0x4#4 ∧ hostRsv w = 0#4 ∧ hostArg w = 0#8 := by
  have h : w &&& 0xFF0000FF#32 = 0x40000000#32 ↔
      _ ∧ _ ∧ hostCnt w &&& 0#8 = 0#8 ∧ hostReg w &&& 0#8 = 0#8 ∧ hostArg w &&& 0xFF#8 = 0#8 :=
    rowTest_iff (o := 0x4#4) rfl rfl
  simpa only [and_0xFF, BitVec.and_zero, true_and] using h

theorem wrRegRow_iff :
    w &&& 0xFFFF0000#32 = 0x50000000#32 ↔ hostOpc w = 0x5#4 ∧ hostRsv w = 0#4 ∧ hostCnt w = 0#8 := by
  have h : w &&& 0xFFFF0000#32 = 0x50000000#32 ↔
      _ ∧ _ ∧ hostCnt w &&& 0xFF#8 = 0#8 ∧ hostReg w &&& 0#8 = 0#8 ∧ hostArg w &&& 0#8 = 0#8 :=
    rowTest_iff (o := 0x5#4) rfl rfl
  simpa only [and_0xFF, BitVec.and_zero, and_true] using h

/-- A word that selects a row is the encoding of what it selects. -/
theorem encodeHost_of_selectsRow (h : SelectsRow w i) : encodeHost i = some w := by
  cases h with
  | openSession h =>
    obtain ⟨ho, hv, hc, hr, ha⟩ := (addressRow_iff 0x1#4).1 h
    simp [encodeHost, hostWord_ext_iff, setWidth_hostAddr ha, ho, hv, hc, hr]
  | closeSession h =>
    obtain ⟨ho, hv, hc, hr, ha⟩ := closeRow_iff.1 h
    simp [encodeHost, hostWord_ext_iff, ho, hv, hc, hr, ha]
  | setAddr h =>
    obtain ⟨ho, hv, hc, hr, ha⟩ := (addressRow_iff 0x3#4).1 h
    simp [encodeHost, hostWord_ext_iff, setWidth_hostAddr ha, ho, hv, hc, hr]
  | rdReg h =>
    obtain ⟨ho, hv, ha⟩ := rdRegRow_iff.1 h
    simp [encodeHost, hostWord_ext_iff, ho, hv, ha]
  | wrReg h =>
    obtain ⟨ho, hv, hc⟩ := wrRegRow_iff.1 h
    simp [encodeHost, hostWord_ext_iff, ho, hv, hc]

/-- The decoder answers the row the word selects. -/
theorem decodeHost_eq_ok_iff : decodeHost w = .ok i ↔ SelectsRow w i := by
  constructor
  · intro h
    unfold decodeHost at h
    split at h
    · cases h; exact .openSession ‹_›
    split at h
    · cases h; exact .closeSession ‹_›
    split at h
    · cases h; exact .setAddr ‹_›
    split at h
    · cases h; exact .rdReg ‹_›
    split at h
    · cases h; exact .wrReg ‹_›
    cases h
  · exact fun h => decodeHost_encodeHost (encodeHost_of_selectsRow h)

theorem exists_selectsRow_iff : (∃ i, SelectsRow w i) ↔
    hostRsv w = 0#4 ∧
      ((hostOpc w = 0x1#4 ∨ hostOpc w = 0x3#4) ∧ hostCnt w = 0#8 ∧ hostReg w = 0#8 ∧ (hostArg w).getLsbD 7 = false ∨
        hostOpc w = 0x2#4 ∧ hostCnt w = 0#8 ∧ hostReg w = 0#8 ∧ hostArg w = 0#8 ∨
        hostOpc w = 0x4#4 ∧ hostArg w = 0#8 ∨ hostOpc w = 0x5#4 ∧ hostCnt w = 0#8) := by
  constructor
  · rintro ⟨i, h | h | h | h | h⟩
    · obtain ⟨ho, hv, h⟩ := (addressRow_iff 0x1#4).1 h
      exact ⟨hv, .inl ⟨.inl ho, h⟩⟩
    · obtain ⟨ho, hv, h⟩ := closeRow_iff.1 h
      exact ⟨hv, .inr (.inl ⟨ho, h⟩)⟩
    · obtain ⟨ho, hv, h⟩ := (addressRow_iff 0x3#4).1 h
      exact ⟨hv, .inl ⟨.inr ho, h⟩⟩
    · obtain ⟨ho, hv, h⟩ := rdRegRow_iff.1 h
      exact ⟨hv, .inr (.inr (.inl ⟨ho, h⟩))⟩
    · obtain ⟨ho, hv, h⟩ := wrRegRow_iff.1 h
      exact ⟨hv, .inr (.inr (.inr ⟨ho, h⟩))⟩
  · rintro ⟨hv, ⟨ho | ho, h⟩ | ⟨ho, h⟩ | ⟨ho, h⟩ | ⟨ho, h⟩⟩
    · exact ⟨_, .openSession ((addressRow_iff 0x1#4).2 ⟨ho, hv, h⟩)⟩
    · exact ⟨_, .setAddr ((addressRow_iff 0x3#4).2 ⟨ho, hv, h⟩)⟩
    · exact ⟨_, .closeSession (closeRow_iff.2 ⟨ho, hv, h⟩)⟩
    · exact ⟨_, .rdReg (rdRegRow_iff.2 ⟨ho, hv, h⟩)⟩
    · exact ⟨_, .wrReg (wrRegRow_iff.2 ⟨ho, hv, h⟩)⟩

theorem decodeHost_eq_error_iff : (∃ e, decodeHost w = .error e) ↔ ¬ ∃ i, SelectsRow w i := by
  simp only [← decodeHost_eq_ok_iff]
  cases decodeHost w <;> simp

end

/-! ## The command stream -/

theorem cases_of_ite_eq {α : Type} {p : Prop} [Decidable p] {a b c : α} (h : (if p then a else b) = c) :
    p ∧ a = c ∨ b = c := by
  split at h
  · exact .inl ⟨‹_›, h⟩
  · exact .inr h

/-- A command read from the front of a stream is there as its encoding (R100 to R109, R112). -/
theorem encodeBridge_of_decodeBridge {bs rest : List Byte} {i : Instr} (h : decodeBridge bs = .ok (i, rest)) :
    ∃ e, encodeBridge i = some e ∧ bs = e ++ rest := by
  cases bs with
  | nil => cases h
  | cons op tl =>
    rw [decodeBridge] at h
    obtain ⟨rfl, h⟩ | h := cases_of_ite_eq h
    · obtain ⟨d, v, rfl, rfl⟩ := Machine.decodeGpio_ok h
      exact ⟨_, rfl, rfl⟩
    obtain ⟨rfl, h⟩ | h := cases_of_ite_eq h
    · obtain ⟨v, rfl, rfl⟩ := Machine.decodeByteOut_ok h
      exact ⟨_, rfl, rfl⟩
    obtain ⟨rfl, h⟩ | h := cases_of_ite_eq h
    · obtain ⟨rfl, rfl⟩ := Machine.decodeByteIn_ok h
      exact ⟨_, rfl, rfl⟩
    obtain ⟨rfl, h⟩ | h := cases_of_ite_eq h
    · obtain ⟨rfl, rfl⟩ := Machine.decodeBitIn_ok h
      exact ⟨_, rfl, rfl⟩
    obtain ⟨rfl, h⟩ | h := cases_of_ite_eq h
    · obtain ⟨b, rfl, rfl⟩ := Machine.decodeBitOut_ok h
      exact ⟨_, rfl, rfl⟩
    obtain ⟨rfl, h⟩ | h := cases_of_ite_eq h
    · obtain ⟨l, u, rfl, rfl⟩ := Machine.decodeSetDiv_ok h
      exact ⟨_, rfl, rfl⟩
    iterate 7
      obtain ⟨rfl, h⟩ | h := cases_of_ite_eq h
      · cases h
        exact ⟨_, rfl, rfl⟩
    cases h

/-! ## The encoding and the decoder -/

/-- Only a primitive has no encoding (R90). -/
theorem level_eq_primitive {i : Instr} (hh : encodeHost i = none) (hb : encodeBridge i = none) :
    i.level = .primitive := by
  cases i <;> simp_all [encodeHost, encodeBridge, Instr.level]

/-- An encoding is read back whole, at either level that has one (R90). -/
theorem decodeEncoding_encode {i : Instr} (hl : i.level ≠ .primitive) : decodeEncoding (encode i) = some i := by
  cases hh : encodeHost i with
  | some w => simp only [encode, hh, decodeEncoding, decodeHost_encodeHost hh]
  | none =>
    cases hb : encodeBridge i with
    | some bs =>
      have hd : decodeBridge bs = .ok (i, []) := by simpa using decodeBridge_encodeBridge [] hb
      simp only [encode, hh, hb, decodeEncoding, hd]
    | none => exact absurd (level_eq_primitive hh hb) hl

/-- Settles O1: the host level, the bridge level, and the two together. -/
theorem decodeEncodeAgree : Obligations.DecodeEncodeAgree :=
  ⟨fun _ _ => decodeHost_encodeHost, fun _ _ => decodeBridge_encodeBridge, fun _ => decodeEncoding_encode⟩

/-- Settles O2: a word by the row it selects, a command by its opcode byte. -/
theorem encodeDecodeAgree : Obligations.EncodeDecodeAgree :=
  ⟨fun _ _ h => encodeHost_of_selectsRow (decodeHost_eq_ok_iff.1 h), fun _ _ _ => encodeBridge_of_decodeBridge⟩

/-- Settles O3: the decoder answers the selected row (`decodeHost_eq_ok_iff`), and each row has one constructor. -/
theorem hostRowsByMatchAndMask : Obligations.HostRowsByMatchAndMask := by
  intro w
  simp only [decodeHost_eq_ok_iff]
  refine ⟨fun a => ⟨fun h => ?_, ?_⟩, ⟨fun h => ?_, .closeSession⟩, fun a => ⟨fun h => ?_, ?_⟩,
    fun r n => ⟨fun h => ?_, ?_⟩, fun r v => ⟨fun h => ?_, ?_⟩⟩
  · cases h with | openSession h => exact ⟨h, rfl⟩
  · rintro ⟨h, rfl⟩; exact .openSession h
  · cases h with | closeSession h => exact h
  · cases h with | setAddr h => exact ⟨h, rfl⟩
  · rintro ⟨h, rfl⟩; exact .setAddr h
  · cases h with | rdReg h => exact ⟨h, rfl, rfl⟩
  · rintro ⟨h, rfl, rfl⟩; exact .rdReg h
  · cases h with | wrReg h => exact ⟨h, rfl, rfl⟩
  · rintro ⟨h, rfl, rfl⟩; exact .wrReg h

/-- Settles O5: the words and bytes are decoded. -/
theorem wordsDecodeToTheirRows : Obligations.WordsDecodeToTheirRows :=
  ⟨rfl, rfl, rfl, rfl, rfl, rfl, rfl, rfl, rfl, rfl⟩

end Sys2Proof

namespace Sys2Proof.Machine

/-! ## An illegal word -/

/-- The result word of an illegal word: OK = 0, CAUSE = 6, the word's own OPC, LEN = 0 (R96, R97). -/
theorem rspWord_illegal (w : HostWord) :
    rspWord false .illegalCmd (hostOpc w) 0#8 = 0x0000000C#32 ||| ((w >>> 28) <<< 4) := by
  refine BitVec.eq_of_toNat_eq ?_
  have hq : w.toNat / 268435456 < 16 := by omega
  have hor : w.toNat / 268435456 * 16 + 12 = w.toNat / 268435456 * 16 ||| 12 := by
    simpa [Nat.mul_comm] using Nat.two_pow_add_eq_or_of_lt (i := 4) (b := 12) (by decide) (w.toNat / 268435456)
  simp only [hostOpc, toNat_rspWord, BitVec.toNat_ofNat, Nat.reducePow, Nat.zero_mod, zero_mul, zero_add,
    BitVec.extractLsb'_toNat, Nat.shiftRight_eq_div_pow, Cause.code, Nat.reduceMod, Nat.reduceMul, Bool.toNat_false,
    add_zero, BitVec.toNat_or, BitVec.toNat_shiftLeft, BitVec.toNat_ushiftRight, Nat.shiftLeft_eq_mul_pow]
  rw [Nat.mod_eq_of_lt hq, Nat.mod_eq_of_lt (by omega), Nat.or_comm, hor]

/-- Settles O4: a word is illegal when it selects no row, which its fields tell (`exists_selectsRow_iff`; what is left
is propositional), and the step that answers it is the failure with the word and the turn taken. -/
theorem illegalWordFailsOnly : Obligations.IllegalWordFailsOnly := by
  refine ⟨?words, ?answer⟩
  case words =>
    intro w
    rw [decodeHost_eq_error_iff, exists_selectsRow_iff]
    simp only [← BitVec.toNat_inj (x := hostOpc w)]
    grind
  case answer =>
    intro s w e ht hb hp hd
    rw [step_of_illegal_word ht hb hp hd, ← rspWord_illegal]
    rfl

end Sys2Proof.Machine
end

section
/-! Bytes and words the block lays out, OPEN's programming bursts, and the bridge commands one by one. -/

namespace Sys2Proof.Machine

/-! ## Address, acknowledgement and result fields -/

theorem toNat_addrByte (a : BitVec 7) (d : BitVec 1) : (addrByte a d).toNat = 2 * a.toNat + d.toNat := by
  have h : 2 * a.toNat + d.toNat = 2 * a.toNat ||| d.toNat := by
    simpa using Nat.two_pow_add_eq_or_of_lt (i := 1) d.isLt a.toNat
  have ha : a.toNat % 256 = a.toNat := Nat.mod_eq_of_lt (by omega)
  have hd : d.toNat % 256 = d.toNat := Nat.mod_eq_of_lt (by omega)
  have h2 : 2 * a.toNat % 256 = 2 * a.toNat := Nat.mod_eq_of_lt (by omega)
  simp [addrByte, Nat.shiftLeft_eq_mul_pow, Nat.mul_comm, ha, hd, h2]
  omega

/-- Settles O6: the byte is written so, and its number is `toNat_addrByte`. -/
theorem addressByteIsTwiceAddressPlusDirection : Obligations.AddressByteIsTwiceAddressPlusDirection :=
  fun a => ⟨rfl, rfl, toNat_addrByte a 0#1, toNat_addrByte a 1#1⟩

/-- Settles O7: the last byte's index, over the integers, is the count less 1. -/
theorem ackByteAndWantAck : Obligations.AckByteAndWantAck := by
  refine ⟨rfl, rfl, fun i n => ?_⟩
  simp only [wantAck, bne_iff_ne]
  omega

/-- Settles O8: each field is a range of bits of the number the word stands for (`toNat_rspWord`). -/
theorem resultWordFields : Obligations.ResultWordFields := by
  intro ok c o l
  have hok : ok.toNat < 2 := Bool.toNat_lt ok
  refine ⟨?ok, ?cause, ?opc, ?len, ?above⟩
  case ok =>
    rw [BitVec.getLsbD, toNat_rspWord, Nat.testBit_zero]
    cases ok <;> simp <;> omega
  all_goals
    refine BitVec.eq_of_toNat_eq ?_
    simp only [BitVec.extractLsb'_toNat, toNat_rspWord, Nat.shiftRight_eq_div_pow]
    simp
    omega

/-! ## OPEN programs the bridge -/

/-- Settles O16: each of the three states sends its burst and moves on. -/
theorem openProgramsClockAndDivider : Obligations.OpenProgramsClockAndDivider := by
  intro a s hb hi
  rw [exec_openSession_inProgress hb hi]
  refine ⟨?clock, ?divider, ?loopback⟩ <;> intro hq <;> rw [advanceOpen, hq] <;> rfl

/-! ## Pins -/

/-- A shift command leaves SCL low (R229). -/
theorem exec_shift_scl {i : Instr} {s t : State} (hi : isShift i = true) (h : exec i s = .next t) :
    t.bridge.scl = false := by
  cases i <;> simp only [isShift, Bool.false_eq_true] at hi
  all_goals
    obtain rfl := Host.Outcome.next.inj h
    rfl

/-- With SCL low no change of the pins is a condition (R161). -/
theorem setPins_of_scl_low {d v : Byte} {s : State} (h : s.bridge.scl = false) :
    setPins d v s = { s with bridge := { s.bridge with dir := d, val := v, scl := sclHigh d v } } := by
  simp [setPins, putBus, busEventOf, h]

/-- Settles O39: the command sets the pins; the sixteen changes between emitted masks are decided one by one; after a
shift command SCL is low. -/
theorem gpioSetsPinsAndConditions : Obligations.GpioSetsPinsAndConditions := by
  refine ⟨fun _ _ _ => rfl, by decide, fun i d v s t hi h => ?_⟩
  rw [exec, execGpio, setPins_of_scl_low (exec_shift_scl hi h)]

/-! ## Shift commands -/

/-- Settles O40: both are their bus event with SCL left low; the bit shifted out is the byte's most significant. -/
theorem shiftOutsPutBitsOnBus : Obligations.ShiftOutsPutBitsOnBus :=
  fun _ => ⟨fun _ => rfl, fun _ => rfl⟩

@[simp] theorem statusByte_getLsbD_zero (k : Nat) (high : Bool) : (statusByte k high).getLsbD 0 = high := by
  show (Config.statusBits k ++ BitVec.ofBool high : BitVec (7 + 1)).getLsbD 0 = high
  rw [BitVec.getLsbD_append]
  simp

theorem sdaLevel_driven {s : State} (hd : s.bridge.dir.getLsbD 1 = true) : sdaLevel s = s.bridge.val.getLsbD 1 := by
  rw [sdaLevel, drivesSda, hd, if_pos rfl]

theorem takeLevel_driven {s : State} (hd : s.bridge.dir.getLsbD 1 = true) : takeLevel s = s := by
  rw [takeLevel, drivesSda, hd, if_pos rfl]

/-- BIT_IN by what using up its level leaves. -/
theorem exec_bitIn {s : State} {n : Inputs} {d : Nat} (h : takeLevel s = { s with inputs := n, draws := d }) :
    exec .bitIn s = .next
      { s with
        bridge := { s.bridge with resp := s.bridge.resp ++ [statusByte s.draws (sdaLevel s)], scl := false }
        bus := s.bus ++ [.bitIn (sdaLevel s)], inputs := n, draws := d + 1 } := by
  rw [exec, execBitIn, h]
  rfl

/-- Settles O41: the response is the status byte of the sampled level, decided by the peer on a released line, by the
bank on a driven one. -/
theorem bitInQueuesSampledLevel : Obligations.BitInQueuesSampledLevel := by
  refine fun s => ⟨?any, ?released, ?driven⟩
  case any =>
    obtain ⟨n, d, h⟩ := takeLevel_eq s
    refine ⟨statusByte s.draws (sdaLevel s), n, d + 1, ?_⟩
    rw [statusByte_getLsbD_zero]
    exact exec_bitIn h
  case released =>
    intro l ls hd hl
    have hx := exec_bitIn (takeLevel_released hd hl)
    rw [sdaLevel_released hd hl] at hx
    exact ⟨_, _, statusByte_getLsbD_zero _ l, hx⟩
  case driven =>
    intro hd
    have hx := exec_bitIn (takeLevel_driven hd)
    rw [sdaLevel_driven hd] at hx
    exact ⟨_, _, statusByte_getLsbD_zero _ _, hx⟩

/-! ## Settings and sentinels -/

/-- A word is its high byte before its low byte. -/
theorem high_append_low (d : BitVec 16) : (d.extractLsb' 8 8 ++ d.extractLsb' 0 8 : BitVec 16) = d :=
  (BitVec.extractLsb'_append_extractLsb'_eq_extractLsb' rfl).trans BitVec.extractLsb'_eq_self

/-- Settles O43: each command changes its setting, and the divider's two bytes are put together again. -/
theorem settingCommandsChangeOneSetting : Obligations.SettingCommandsChangeOneSetting := by
  refine fun s => ⟨rfl, rfl, rfl, rfl, fun d => ?_⟩
  rw [exec, execSetDiv, high_append_low]
  rfl

theorem sentinel_neutral {s : State} (x : Byte) (h : s.bridge.settings.mode = .neutral) :
    sentinel x s = { respond (Config.strayReply s.draws) s with draws := s.draws + 1 } := by
  simp [sentinel, echoOf, echoDraws, h]

/-- Settles O45: a sentinel by the mode of the bridge. -/
theorem sentinelsEcho : Obligations.SentinelsEcho := by
  refine fun s => ⟨fun h => ⟨?_, ?_⟩, fun h => ⟨?_, ?_⟩⟩
  · rw [exec, execSync1, sentinel_clockedShift h]; rfl
  · rw [exec, execSync2, sentinel_clockedShift h]; rfl
  · rw [exec, execSync1, sentinel_neutral _ h]; rfl
  · rw [exec, execSync2, sentinel_neutral _ h]; rfl

/-! ## Responses per command -/

/-- The bytes of `u` not yet retrieved are those of `s` with `n` new ones behind them. -/
def AddsResponses (n : Nat) (s u : State) : Prop :=
  ∃ new, u.bridge.rxq ++ u.bridge.resp = s.bridge.rxq ++ s.bridge.resp ++ new ∧ new.length = n

theorem addsResponses_zero {s u : State} (h : u.bridge.rxq ++ u.bridge.resp = s.bridge.rxq ++ s.bridge.resp) :
    AddsResponses 0 s u := ⟨[], by rw [h, List.append_nil], rfl⟩

theorem addsResponses_of_resp {s u : State} (bs : List Byte) (hq : u.bridge.rxq = s.bridge.rxq)
    (hr : u.bridge.resp = s.bridge.resp ++ bs) : AddsResponses bs.length s u :=
  ⟨bs, by rw [hq, hr, List.append_assoc], rfl⟩

/-- Settles O46: a byte for each sampled command, the echo for a sentinel; SEND_NOW moves the bytes over in order, and
no other command touches them. -/
theorem responsesPerCommand : Obligations.ResponsesPerCommand := by
  intro i s t hl hm h
  show AddsResponses (responseCount i) s t
  cases i <;> simp only [Instr.level, reduceCtorEq] at hl
  case byteIn =>
    obtain ⟨b, n, d, hx⟩ := (byteInQueuesEightSamples s).1
    obtain rfl := Host.Outcome.next.inj (hx.symm.trans h)
    exact addsResponses_of_resp [b] rfl rfl
  case bitIn =>
    obtain ⟨b, n, d, hx⟩ := (bitInQueuesSampledLevel s).1
    obtain rfl := Host.Outcome.next.inj (hx.symm.trans h)
    exact addsResponses_of_resp [b] rfl rfl
  case sync1 =>
    obtain rfl := Host.Outcome.next.inj (((sentinelsEcho s).1 hm).1.symm.trans h)
    exact addsResponses_of_resp [0xFA#8, 0xAA#8] rfl rfl
  case sync2 =>
    obtain rfl := Host.Outcome.next.inj (((sentinelsEcho s).1 hm).2.symm.trans h)
    exact addsResponses_of_resp [0xFA#8, 0xAB#8] rfl rfl
  case sendNow =>
    obtain rfl := Host.Outcome.next.inj h
    exact addsResponses_zero (List.append_nil _)
  all_goals
    obtain rfl := Host.Outcome.next.inj h
    exact addsResponses_zero rfl

end Sys2Proof.Machine
end

section
/-! How an operation ends: with one result that its result registers hold, or by a reset. -/

namespace Sys2Proof.Machine

/-! ## What ends an operation -/

section
variable {s t : State}

/-- `t` has ended an operation of `s` with the one result its result registers hold, and LENGTH is a cause of STRICT
only (R91, R97, R205, R210). -/
structure EndsWithResult (s t : State) : Prop where
  delivers : DeliversResult s t
  seq : t.seq = .idle
  resValid : t.resValid = true
  cause : t.resCause = .length → s.cfg.policy = .strict

theorem EndsWithResult.resh (h : EndsWithResult s t) : t.resh = s.resh ++ [(t.rsp, t.resData)] := by
  rw [State.resh, h.delivers.2, List.filterMap_append]
  rfl

theorem succeed_endsWithResult {u : State} (d : List Byte) (hh : u.hist = s.hist) : EndsWithResult s (succeed d u) :=
  ⟨⟨rfl, hh ▸ rfl⟩, rfl, rfl, nofun⟩

theorem fail_endsWithResult {c : Cause} (hc : c = .length → s.cfg.policy = .strict) : EndsWithResult s (fail c s) :=
  ⟨⟨rfl, rfl⟩, rfl, rfl, hc⟩

/-- Only a length other than EXPECT under STRICT is wrong (R178 step 1). -/
theorem strict_of_lengthCheck_wrong {p : ShortReadPolicy} {n m : Nat} (h : lengthCheck p n m = .wrong) :
    p = .strict := by
  unfold lengthCheck at h
  split at h <;> rename_i hw
  · exact hw.2
  · split at h <;> cases h

theorem validate_endsWithResult (isRead : Bool) (s : State) : EndsWithResult s (validate isRead s) where
  delivers := validate_deliversResult isRead s
  seq := validate_seq isRead s
  resValid := by
    obtain ⟨-, h⟩ | ⟨-, h⟩ | ⟨-, -, h⟩ | ⟨-, -, h⟩ := validate_cases isRead s
    · rw [h]; rfl
    · obtain ⟨d, -, -, h'⟩ | ⟨c, -, h'⟩ := lenientResult_cases isRead s <;> rw [h, h'] <;> rfl
    · rw [h]; rfl
    · rw [h]; rfl
  cause := by
    obtain ⟨hw, -⟩ | ⟨-, h⟩ | ⟨-, -, h⟩ | ⟨-, -, h⟩ := validate_cases isRead s
    · exact fun _ => strict_of_lengthCheck_wrong hw
    · obtain ⟨d, -, -, h'⟩ | ⟨c, hc, h'⟩ := lenientResult_cases isRead s <;> rw [h, h']
      · exact nofun
      · exact fun he => absurd he hc
    · rw [h]; exact nofun
    · rw [h]; exact nofun

/-! ## The actions of the SEQ states -/

theorem advanceOpen_ends {a : BitVec 7} (hb : s.busy = true) (h : advanceOpen a s = .next t) :
    t.busy = true ∨ EndsWithResult s t := by
  cases hq : s.seq <;> simp only [advanceOpen, hq, reduceCtorEq, Host.Outcome.next.injEq] at h <;> subst h
  case oCheck =>
    unfold openCheck
    split
    · exact .inr (fail_endsWithResult nofun)
    · exact .inl hb
  case oAcq =>
    obtain ⟨i, d, hg⟩ := takeGrant_eq (ctrl (.acquire Config.deviceId) s)
    unfold openAcquire
    rw [hg]
    split <;> exact .inl hb
  case oRefused | oFail => exact .inr (fail_endsWithResult nofun)
  case oSync1Cmp | oSync2Cmp => rw [openCompare_eq]; exact .inl hb
  case oDone => exact .inr (succeed_endsWithResult [] rfl)
  all_goals exact .inl hb

theorem advanceClose_ends (hb : s.busy = true) (h : advanceClose s = .next t) :
    t.busy = true ∨ EndsWithResult s t := by
  unfold advanceClose at h
  split at h <;> cases h
  · unfold closeRelease
    split
    · exact .inl hb
    · exact .inr (fail_endsWithResult nofun)
  · exact .inr (succeed_endsWithResult [] rfl)

theorem advanceSetAddr_ends {a : BitVec 7} (h : advanceSetAddr a s = .next t) : EndsWithResult s t := by
  unfold advanceSetAddr at h
  split at h <;> cases h
  exact succeed_endsWithResult [] rfl

theorem sessionCheck_ends (hb : s.busy = true) :
    (sessionCheck s).busy = true ∨ EndsWithResult s (sessionCheck s) := by
  unfold sessionCheck
  split
  · exact .inr (fail_endsWithResult nofun)
  · exact .inl hb

theorem advanceRdReg_ends {n : Byte} (hb : s.busy = true) (h : advanceRdReg n s = .next t) :
    t.busy = true ∨ EndsWithResult s t := by
  unfold advanceRdReg at h
  split at h <;> cases h
  · exact sessionCheck_ends hb
  · exact .inl hb
  · exact .inl hb
  · exact .inr (validate_endsWithResult true s)

theorem advanceWrReg_ends (hb : s.busy = true) (h : advanceWrReg s = .next t) :
    t.busy = true ∨ EndsWithResult s t := by
  unfold advanceWrReg at h
  split at h <;> cases h
  · exact sessionCheck_ends hb
  · exact .inl hb
  · exact .inl hb
  · exact .inr (validate_endsWithResult false s)

/-- The operation in progress goes on, or its action ends it. -/
theorem advance_ends (hb : s.busy = true) (h : advance s = .next t) : t.busy = true ∨ EndsWithResult s t := by
  unfold advance at h
  split at h
  · exact advanceOpen_ends hb h
  · exact advanceClose_ends hb h
  · exact .inr (advanceSetAddr_ends h)
  · exact advanceRdReg_ends hb h
  · exact advanceWrReg_ends hb h

/-! ## One step of any agent -/

theorem execPoll_busy {n : Nat} (h : execPoll n s = .next t) : t.busy = s.busy := by
  obtain ⟨-, rfl⟩ | ⟨-, rfl⟩ | ⟨-, rfl⟩ | ⟨m, -, rfl⟩ := execPoll_cases h
  · rfl
  · obtain ⟨-, -, hs⟩ | ⟨-, -, hs⟩ | ⟨-, hs⟩ := pollSample_cases n s <;> rw [hs] <;> rfl
  · rfl
  · rfl

/-- Of a busy controller's steps only the action of a SEQ state ends the operation. -/
theorem step_busy_ends (ht : s.turn = .controller) (hb : s.busy = true) (h : step s = .next t) :
    t.busy = true ∨ EndsWithResult s t := by
  rw [step_controller ht] at h
  obtain ⟨hp, u, hu, rfl⟩ | ⟨-, p, i, u, -, hi, hu, rfl⟩ | ⟨-, -, u, hu, rfl⟩ := controllerTurn_busy_cases hb h
  · have hub : u.busy = true := (execPoll_busy hu).trans hb
    refine .inl (show (if pollEnds s then afterPoll u else u).busy = true from ?_)
    split
    · rw [afterPoll_eq]; exact hub
    · exact hub
  · obtain ⟨bs, hx⟩ := exec_primitiveAt hi
    obtain rfl : cbAppend bs s = u := by simpa [hx] using hu
    obtain ⟨q, x, he⟩ := afterPrimitive_eq (cbAppend bs s)
    rw [he]
    exact .inl hb
  · rw [exec_inProgress hb] at hu
    obtain hu | ⟨hd, hq, hv, hc⟩ := advance_ends hb hu
    · exact .inl hu
    · exact .inr ⟨hd, hq, hv, hc⟩

/-- An idle block comes of a result, or nothing was in progress and no result is delivered, or of a reset, which
delivers none. -/
theorem step_to_idle (h : step s = .next t) (hi : t.busy = false) :
    EndsWithResult s t ∨ t.resh = s.resh ∧ (s.busy = false ∨ s.turn = .env ∧ nextEvent s = .reset) := by
  cases step_moves h with
  | waits _ hb => exact .inr ⟨rfl, .inl hb⟩
  | rejects => exact .inl ⟨⟨rfl, rfl⟩, rfl, rfl, nofun⟩
  | accepts => cases hi
  | polls ht hb | retrieves ht hb | builds ht hb | advances ht hb =>
    exact .inl ((step_busy_ends ht hb h).resolve_left (Bool.eq_false_iff.1 hi))
  | runs | serves | shares => exact .inr ⟨rfl, .inl hi⟩
  | resets ht he => exact .inr ⟨rfl, .inr ⟨ht, he⟩⟩

/-- A result is delivered into an idle block only. -/
theorem step_resh (h : step s = .next t) : t.resh = s.resh ∨ t.busy = false := by
  obtain hs | ⟨-, -, hd, -⟩ := step_hist h
  · left
    rw [State.resh, hs, List.filterMap_append]
    cases he : eventAt s with
    | none => simp [State.resh]
    | some e =>
      cases e with
      | result r d => exact absurd he (eventAt_ne_result r d)
      | _ => simp [State.resh, Event.result?]
  · exact .inr hd

theorem endsWithResult_of_resh (h : step s = .next t) (hr : t.resh ≠ s.resh) : EndsWithResult s t :=
  (step_to_idle h ((step_resh h).resolve_left hr)).resolve_right fun hs => hr hs.1

end

/-- Settles O56: a step into an idle block (`step_to_idle`) ends the operation with its result or is a reset, and only a
step that ends one delivers a result. -/
theorem oneResultEndsOperation : Obligations.OneResultEndsOperation := by
  refine fun s t h => ⟨fun hb hi => ?_, fun hr => ?_⟩
  · obtain he | ⟨hx, hb' | ⟨ht, hn⟩⟩ := step_to_idle h hi
    · exact .inl he.resh
    · simp [hb'] at hb
    · exact .inr ⟨ht, hn, hx⟩
  · have he := endsWithResult_of_resh h hr
    exact ⟨he.resh, he.delivers.1, he.seq, he.resValid⟩

/-! ## The result LENIENT leaves open -/

theorem validate_lenient_unusable {s : State} {isRead : Bool} (hp : s.cfg.policy = .lenient)
    (hl : s.rxbuf.length < 3 ∨ 258 < s.rxbuf.length) : validate isRead s = lenientResult isRead s := by
  have hc : lengthCheck s.cfg.policy s.expect s.rxlen = .unspecified := by
    rw [hp, lengthCheck, if_neg (by simp), if_pos (by simp only [State.rxlen]; omega)]
  rw [validate, hc]

/-- Settles O25: the result is what `lenientResult_cases` leaves open, and LENGTH is a cause of STRICT only. -/
theorem lenientUnusableLengthStillEnds : Obligations.LenientUnusableLengthStillEnds := by
  refine ⟨fun s hb hq hp hl => ⟨?read, ?write⟩, ?never⟩
  case read =>
    intro r n hi
    obtain ⟨ho, -⟩ := inProgress_eq_rdReg.1 hi
    rw [exec_rdReg_validates hb hi hq, validate_lenient_unusable hp hl]
    obtain ⟨d, hd, -, hx⟩ | ⟨c, hc, hx⟩ := lenientResult_cases true s <;> rw [hx]
    · rw [succeed_of_op ho]
      exact ⟨true, .none, d, rfl, hd, fun _ => rfl, nofun, nofun⟩
    · rw [fail_of_op ho]
      exact ⟨false, c, [], rfl, Nat.zero_le _, nofun, fun _ => rfl, hc⟩
  case write =>
    intro r v hi
    obtain ⟨ho, -⟩ := inProgress_eq_wrReg.1 hi
    rw [exec_wrReg_validates hb hi hq, validate_lenient_unusable hp hl]
    obtain ⟨d, -, hd, hx⟩ | ⟨c, hc, hx⟩ := lenientResult_cases false s <;> rw [hx]
    · rw [hd rfl, succeed_of_op ho]
      exact ⟨true, .none, rfl, fun _ => rfl, nofun⟩
    · rw [fail_of_op ho]
      exact ⟨false, c, rfl, nofun, hc⟩
  case never =>
    intro s t hp h hr hc
    have hs := (endsWithResult_of_resh h hr).cause hc
    rw [hp] at hs
    cases hs

end Sys2Proof.Machine
end

section
/-! The states of OPEN and SETADDR that end the operation or send one control event. -/

namespace Sys2Proof.Machine

theorem inProgress_eq_setAddr {s : State} {a : BitVec 7} :
    inProgress s = .setAddr a ↔ s.op = .setAddrOp ∧ s.aAddr = a := by
  cases ho : s.op <;> simp [inProgress, ho]

theorem exec_setAddr_inProgress {a : BitVec 7} {s : State} (hb : s.busy = true) (hi : inProgress s = .setAddr a) :
    exec (.setAddr a) s = advanceSetAddr a s :=
  hostOperation_of_inProgress hb hi

theorem advanceSetAddr_aSet {a : BitVec 7} {s : State} (h : s.seq = .aSet) :
    advanceSetAddr a s = .next (succeed [] { s with addr := a }) := by
  simp [advanceSetAddr, h]

theorem openCheck_opened {s : State} (h : s.sess = .opened) : openCheck s = fail .sessionState s := by
  simp [openCheck, h]

/-- Settles O12: the check fails, and a failure is its result and the return to idle. -/
theorem openWhileOpenChangesNothing : Obligations.OpenWhileOpenChangesNothing := by
  intro a s hb hi hq hs
  obtain ⟨ho, -⟩ := inProgress_eq_openSession.1 hi
  rw [exec_openSession_inProgress hb hi]
  simp only [advanceOpen, hq]
  rw [openCheck_opened hs, fail_of_op ho]
  rfl

/-- Settles O14: each of the six states sends its one event, whose effect on the configuration is `bridgeAfterCtrl`, and
moves on; only `Reset` draws a free value. -/
theorem openConfiguresBridgeInOrder : Obligations.OpenConfiguresBridgeInOrder := by
  intro a s hb hi
  rw [exec_openSession_inProgress hb hi]
  refine ⟨?reset, ?latency, ?usb, ?timeouts, ?neutral, ?shift⟩
  all_goals
    intro hq
    simp only [advanceOpen, hq]
    rfl

/-- Settles O17: the success is delivered from the state in which ADDR and SESS are written. -/
theorem openSuccessWritesAddrAndSess : Obligations.OpenSuccessWritesAddrAndSess := by
  intro a s hb hi hq
  obtain ⟨ho, -⟩ := inProgress_eq_openSession.1 hi
  rw [exec_openSession_inProgress hb hi]
  simp only [advanceOpen, hq]
  rw [openDone, succeed_of_op (s := { s with addr := a, sess := .opened }) ho]
  rfl

/-- Settles O20: the one state of SETADDR does not read SESS. -/
theorem setAddrRebindsAddress : Obligations.SetAddrRebindsAddress := by
  intro a s hb hi hq
  obtain ⟨ho, -⟩ := inProgress_eq_setAddr.1 hi
  rw [exec_setAddr_inProgress hb hi, advanceSetAddr_aSet hq, succeed_of_op (s := { s with addr := a }) ho]
  rfl

end Sys2Proof.Machine
end

section
/-! The primitives as bytes and as commands: what each appends to CB, and what its bytes decode to and count. -/

namespace Sys2Proof.Machine

/-! ## What the primitives append -/

/-- Settles O32: the phases written out. -/
theorem startAndStopAppendPhases : Obligations.StartAndStopAppendPhases := fun _ => ⟨rfl, rfl⟩

/-- Settles O33: the steps written out, NREP_DATA triples each. -/
theorem byteWriteAndReadAppend : Obligations.ByteWriteAndReadAppend := fun _ => ⟨fun _ => rfl, fun _ => rfl⟩

/-! ## A stretch of bytes and its commands -/

/-- The bytes `bs` are the bridge commands `is`, one after the other. -/
structure CommandsOf (bs : List Byte) (is : List Instr) : Prop where
  encodes : encodeCommands is = bs
  level : ∀ i ∈ is, i.level = .bridgeCommand

theorem level_of_encodeBridge {i : Instr} {bs : List Byte} (h : encodeBridge i = some bs) :
    i.level = .bridgeCommand :=
  decodeBridge_level (decodeBridge_encodeBridge [] h)

section
variable {bs bs' : List Byte} {is js : List Instr} {i : Instr}

theorem CommandsOf.nil : CommandsOf [] [] := ⟨rfl, by simp⟩

theorem CommandsOf.command (h : encodeBridge i = some bs) : CommandsOf bs [i] :=
  ⟨by simp [encodeCommands, h], by simp [level_of_encodeBridge h]⟩

theorem CommandsOf.append (h : CommandsOf bs is) (h' : CommandsOf bs' js) : CommandsOf (bs ++ bs') (is ++ js) where
  encodes := by rw [encodeCommands_append, h.encodes, h'.encodes]
  level i hi := (List.mem_append.1 hi).elim (h.level i) (h'.level i)

theorem CommandsOf.replicate (h : CommandsOf bs [i]) (k : Nat) :
    CommandsOf (repeatBytes k bs) (List.replicate k i) := by
  induction k with
  | zero => exact .nil
  | succ k ih => exact h.append ih

theorem CommandsOf.decodeBurst (h : CommandsOf bs is) : decodeBurst bs = some is :=
  h.encodes ▸ decodeBurst_encodeCommands h.level

end

/-! ## The commands of the primitives -/

/-- `k` GPIO triples of direction mask `d` (R101, R103). -/
def triples (k : Nat) (d : Byte) : List Instr := List.replicate k (.gpio d Config.val0)

/-- The commands of START (R153). -/
def startCommands : List Instr := triples 6 0x00#8 ++ triples 6 0x02#8 ++ triples 6 0x03#8

/-- The commands of STOP (R154). -/
def stopCommands : List Instr := triples 6 0x03#8 ++ triples 6 0x02#8 ++ triples 6 0x00#8

/-- The commands of WRBYTE(v) (R155). -/
def wrByteCommands (c : NRepData) (v : Byte) : List Instr :=
  triples c.count 0x03#8 ++ [.byteOut v] ++ triples c.count 0x01#8 ++ [.bitIn] ++ [.sendNow]

/-- The commands of RDBYTE(w) (R157). -/
def rdByteCommands (c : NRepData) (w : Bool) : List Instr :=
  triples c.count 0x01#8 ++ [.byteIn] ++ triples c.count 0x03#8 ++ [.bitOut (ackByte w)] ++ triples c.count 0x01#8 ++
    [.sendNow]

theorem commandsOf_triples (k : Nat) (d : Byte) : CommandsOf (repeatBytes k (gpioTriple d)) (triples k d) :=
  (CommandsOf.command rfl).replicate k

theorem commandsOf_startBytes : CommandsOf startBytes startCommands :=
  ((commandsOf_triples 6 _).append (commandsOf_triples 6 _)).append (commandsOf_triples 6 _)

theorem commandsOf_stopBytes : CommandsOf stopBytes stopCommands :=
  ((commandsOf_triples 6 _).append (commandsOf_triples 6 _)).append (commandsOf_triples 6 _)

theorem commandsOf_wrByteBytes (c : NRepData) (v : Byte) : CommandsOf (wrByteBytes c v) (wrByteCommands c v) :=
  ((((commandsOf_triples _ _).append (.command rfl)).append (commandsOf_triples _ _)).append (.command rfl)).append
    (.command rfl)

theorem commandsOf_rdByteBytes (c : NRepData) (w : Bool) : CommandsOf (rdByteBytes c w) (rdByteCommands c w) :=
  (((((commandsOf_triples _ _).append (.command rfl)).append (commandsOf_triples _ _)).append (.command rfl)).append
    (commandsOf_triples _ _)).append (.command rfl)

/-- Settles O34: CB gains the bytes of START and then those of STOP, which decode to their triples; the six of START's
last phase and the six of STOP's first are the twelve of mask 0x03. -/
theorem startThenStopIsThirtySixTriples : Obligations.StartThenStopIsThirtySixTriples := by
  intro s hcb
  have ht : s.cb ++ startBytes ++ stopBytes = startBytes ++ stopBytes := by rw [hcb, List.nil_append]
  refine ⟨cbAppend stopBytes (cbAppend startBytes s), rfl, rfl, ?length, ?commands⟩
  case length => simp [ht, length_startBytes, length_stopBytes]
  case commands =>
    simp only [cbAppend_cb, ht]
    exact (commandsOf_startBytes.append commandsOf_stopBytes).decodeBurst

/-! ## Counting commands -/

section
variable (k : Nat) (d : Byte)

@[simp] theorem filter_isGpio_triples : (triples k d).filter isGpio = triples k d :=
  List.filter_replicate_of_pos rfl

@[simp] theorem filter_isShift_triples : (triples k d).filter isShift = [] :=
  List.filter_replicate_of_neg Bool.false_ne_true

@[simp] theorem filter_isSendNow_triples : (triples k d).filter isSendNow = [] :=
  List.filter_replicate_of_neg Bool.false_ne_true

@[simp] theorem length_triples : (triples k d).length = k := List.length_replicate

@[simp] theorem responseTotal_triples : responseTotal (triples k d) = 0 := by
  induction k with
  | zero => rfl
  | succ k ih => simpa [triples, List.replicate_succ, responseTotal, responseCount] using ih

end

/-- Settles O35: the lengths are those of `length_wrByteBytes` and its like; of the commands, the triples count as GPIO
only, and the single commands are counted one by one. -/
theorem primitiveLengthsAndCounts : Obligations.PrimitiveLengthsAndCounts := by
  refine ⟨⟨_, commandsOf_startBytes.decodeBurst, length_startBytes, ?_⟩,
    ⟨_, commandsOf_stopBytes.decodeBurst, length_stopBytes, ?_⟩,
    fun c v => ⟨_, (commandsOf_wrByteBytes c v).decodeBurst, length_wrByteBytes c v, ?_⟩,
    fun c w => ⟨_, (commandsOf_rdByteBytes c w).decodeBurst, length_rdByteBytes c w, ?_⟩⟩
  · simp [startCommands, responseTotal_append]
  · simp [stopCommands, responseTotal_append]
  · simp [wrByteCommands, List.filter_cons, responseTotal_append, responseTotal, responseCount, isGpio, isShift,
      isSendNow]
    ring
  · simp [rdByteCommands, List.filter_cons, responseTotal_append, responseTotal, responseCount, isGpio, isShift,
      isSendNow]
    ring

end Sys2Proof.Machine
end

section
/-! The bridge running the bursts of the block: the frames of R177 on the bus, and the responses it makes visible. -/

namespace Sys2Proof.Machine

/-! ## Runs of a stretch of bytes -/

/-- The bytes `bs` are bridge commands that take the bridge from `s` to `t`. -/
def Runs (bs : List Byte) (s t : State) : Prop := ∃ is, CommandsOf bs is ∧ executeAll is s = .next t

theorem executeAll_append {is js : List Instr} {s t : State} (h : executeAll is s = .next t) :
    executeAll (is ++ js) s = executeAll js t := by
  induction is generalizing s with
  | nil => cases h; rfl
  | cons i is ih =>
    rw [List.cons_append, executeAll]
    rw [executeAll] at h
    cases hx : exec i s <;> simp only [hx, reduceCtorEq] at h ⊢
    exact ih h

section
variable {bs bs' : List Byte} {s t u : State}

theorem Runs.nil : Runs [] s s := ⟨[], .nil, rfl⟩

theorem Runs.command {i : Instr} (he : encodeBridge i = some bs) (hx : exec i s = .next t) : Runs bs s t :=
  ⟨[i], .command he, by simp [executeAll, hx]⟩

theorem Runs.append (h : Runs bs s t) (h' : Runs bs' t u) : Runs (bs ++ bs') s u := by
  obtain ⟨is, hc, hx⟩ := h
  obtain ⟨js, hc', hx'⟩ := h'
  exact ⟨is ++ js, hc.append hc', (executeAll_append hx).trans hx'⟩

theorem Runs.to (h : Runs bs s t) (ht : t = u) : Runs bs s u := ht ▸ h

theorem Runs.decodes (h : Runs bs s t) : ∃ cs, decodeBurst bs = some cs ∧ executeAll cs s = .next t := by
  obtain ⟨cs, hc, hx⟩ := h
  exact ⟨cs, hc.decodeBurst, hx⟩

end

/-! ## Changes of the pins -/

/-- The pins at the direction mask `d`, every output at VAL0 (R102, R103). -/
def pinsAt (d : Byte) (s : State) : State :=
  { s with bridge := { s.bridge with dir := d, val := Config.val0, scl := sclHigh d Config.val0 } }

/-- A condition is a change of SDA (R161). -/
theorem busEventOf_sda_kept (scl sda scl' : Bool) : busEventOf scl sda scl' sda = [] := by
  cases sda <;> simp [busEventOf]

section
variable {d d' : Byte} {s : State} {es : List BusEvent}

@[simp] theorem putBus_nil : putBus [] s = s := by simp [putBus]

/-- The condition of a change between two masks of the block depends on the masks only. -/
theorem setPins_pinsAt (h : busEventOf (sclHigh d Config.val0) (sdaHigh d Config.val0) (sclHigh d' Config.val0)
    (sdaHigh d' Config.val0) = es) : setPins d' Config.val0 (pinsAt d s) = pinsAt d' (putBus es s) :=
  h ▸ rfl

theorem setPins_of_sda_kept (h : sdaHigh s.bridge.dir s.bridge.val = sdaHigh d Config.val0) :
    setPins d Config.val0 s = pinsAt d s := by
  simp [setPins, putBus, pinsAt, h, busEventOf_sda_kept]

/-- A triple repeated is the triple: the lines change once. -/
theorem runs_triples (k : Nat) (d : Byte) (s : State) :
    Runs (repeatBytes (k + 1) (gpioTriple d)) s (setPins d Config.val0 s) := by
  have once (u : State) : Runs (gpioTriple d) u (setPins d Config.val0 u) :=
    .command (i := .gpio d Config.val0) rfl rfl
  have again (u : State) : setPins d Config.val0 (setPins d Config.val0 u) = setPins d Config.val0 u :=
    setPins_of_sda_kept rfl
  induction k generalizing s with
  | zero => simpa [repeatBytes_succ] using once s
  | succ k ih => simpa only [repeatBytes_succ (k + 1), again] using (once s).append (ih (setPins d Config.val0 s))

theorem runs_phase (d : Byte) (s : State) : Runs (phase d) s (setPins d Config.val0 s) := runs_triples 5 d s

/-- With SCL low, a step inside a byte primitive sets the pins and is no condition (R151, R161). -/
theorem runs_gpioStep (c : NRepData) (d : Byte) (h : s.bridge.scl = false) : Runs (gpioStep c d) s (pinsAt d s) := by
  cases c with
  | one => exact (runs_triples 0 d s).to (setPins_of_scl_low h)
  | six => exact (runs_triples 5 d s).to (setPins_of_scl_low h)

/-- START from a released SDA: the one condition is SDA's fall while SCL is high (R153). -/
theorem runs_startBytes (h : sdaHigh s.bridge.dir s.bridge.val = true) :
    Runs startBytes s (pinsAt 0x03#8 (putBus [.start] s)) := by
  have released : setPins 0x00#8 Config.val0 s = pinsAt 0x00#8 s := setPins_of_sda_kept h
  refine (((runs_phase 0x00#8 s).append (runs_phase 0x02#8 _)).append (runs_phase 0x03#8 _)).to ?_
  calc setPins 0x03#8 Config.val0 (setPins 0x02#8 Config.val0 (setPins 0x00#8 Config.val0 s))
    _ = setPins 0x03#8 Config.val0 (setPins 0x02#8 Config.val0 (pinsAt 0x00#8 s)) := by rw [released]
    _ = setPins 0x03#8 Config.val0 (pinsAt 0x02#8 (putBus [.start] s)) := by
      rw [setPins_pinsAt (es := [.start]) rfl]
    _ = pinsAt 0x03#8 (putBus [.start] s) := by rw [setPins_pinsAt (es := []) rfl, putBus_nil]

/-- STOP from a low SCL: the one condition is SDA's rise while SCL is high (R154). -/
theorem runs_stopBytes (h : s.bridge.scl = false) : Runs stopBytes s (pinsAt 0x00#8 (putBus [.stop] s)) := by
  have low : setPins 0x03#8 Config.val0 s = pinsAt 0x03#8 s := setPins_of_scl_low h
  refine (((runs_phase 0x03#8 s).append (runs_phase 0x02#8 _)).append (runs_phase 0x00#8 _)).to ?_
  calc setPins 0x00#8 Config.val0 (setPins 0x02#8 Config.val0 (setPins 0x03#8 Config.val0 s))
    _ = setPins 0x00#8 Config.val0 (setPins 0x02#8 Config.val0 (pinsAt 0x03#8 s)) := by rw [low]
    _ = setPins 0x00#8 Config.val0 (pinsAt 0x02#8 s) := by rw [setPins_pinsAt (es := []) rfl, putBus_nil]
    _ = pinsAt 0x00#8 (putBus [.stop] s) := setPins_pinsAt rfl

end

/-! ## Bytes and their acknowledge slots -/

/-- The state between two bytes of a frame, since `s`: the events `es` are on the bus, the responses `rs` are visible
behind all that `s` had produced, the levels `ls` are left, `k` values have been drawn, SDA is released and SCL low. -/
def exchanged (es : List BusEvent) (rs : List Byte) (ls : List Bool) (k : Nat) (s : State) : State :=
  { s with
    bridge :=
      { s.bridge with
        dir := 0x01#8, val := Config.val0, scl := false, rxq := s.bridge.rxq ++ s.bridge.resp ++ rs, resp := [] }
    bus := s.bus ++ es
    inputs := { s.inputs with levels := ls }
    draws := k }

section
variable {c : NRepData} {v b : Byte} {l : Bool} {ls ls' : List Bool} {s : State} {es es' : List BusEvent}
  {rs rs' : List Byte} {k k' : Nat}

@[simp] theorem exchanged_draws : (exchanged es rs ls k s).draws = k := rfl

@[simp] theorem exchanged_exchanged :
    exchanged es' rs' ls' k' (exchanged es rs ls k s) = exchanged (es ++ es') (rs ++ rs') ls' k' s := by
  simp [exchanged]

theorem exchanged_sda_released :
    sdaHigh (exchanged es rs ls k s).bridge.dir (exchanged es rs ls k s).bridge.val = true :=
  show sdaHigh 0x01#8 Config.val0 = true from rfl

/-- A condition that begins an exchange belongs to it. -/
theorem exchanged_of_start : exchanged es rs ls k (pinsAt 0x03#8 (putBus [.start] s)) =
    exchanged ([.start] ++ es) rs ls k s := by
  simp [exchanged, pinsAt, putBus]

theorem sda_released_at_one (s : State) : (pinsAt 0x01#8 s).bridge.dir.getLsbD 1 = false :=
  show (0x01#8).getLsbD 1 = false from rfl

/-- BIT_IN on a released SDA whose level is decided. -/
theorem exec_bitIn_released (hd : s.bridge.dir.getLsbD 1 = false) (hl : s.inputs.levels = l :: ls) :
    exec .bitIn s = .next (clockLow (drawn (putBus [.bitIn l]
      (respond [statusByte s.draws l] { s with inputs := { s.inputs with levels := ls } })))) := by
  rw [exec, execBitIn, sdaLevel_released hd hl, takeLevel_released hd hl]

theorem exec_bitOut_ackByte (w : Bool) : exec (.bitOut (ackByte w)) s = .next (clockLow (putBus [.bitOut !w] s)) := by
  cases w <;> rfl

/-- WRBYTE from a low SCL: the byte and the peer's level on the bus, its status byte visible (R155, R156). -/
theorem runs_wrByteBytes (hs : s.bridge.scl = false) (hl : s.inputs.levels = l :: ls) :
    Runs (wrByteBytes c v) s (exchanged (masterByte v l) [statusByte s.draws l] ls (s.draws + 1) s) := by
  refine (((((runs_gpioStep c 0x03#8 hs).append (.command (i := .byteOut v) rfl rfl)).append
    (runs_gpioStep c 0x01#8 rfl)).append (.command rfl (exec_bitIn_released (sda_released_at_one _) hl))).append
    (.command (i := .sendNow) rfl rfl)).to ?_
  simp [exchanged, masterByte, pinsAt, clockLow, drawn, putBus, respond, flushResponses]

/-- RDBYTE from a low SCL: the peer's byte and the answer `w` on the bus, the byte visible (R157, R158). -/
theorem runs_rdByteBytes (w : Bool) (hs : s.bridge.scl = false) (hl : s.inputs.levels = levelsOf b ++ ls) :
    Runs (rdByteBytes c w) s (exchanged [.byteIn b, .bitOut !w] [b] ls s.draws s) := by
  have hbyte := (byteInQueuesEightSamples (pinsAt 0x01#8 s)).2 b ls (sda_released_at_one s) hl
  refine ((((((runs_gpioStep c 0x01#8 hs).append (.command rfl hbyte)).append (runs_gpioStep c 0x03#8 rfl)).append
    (.command rfl (exec_bitOut_ackByte w))).append (runs_gpioStep c 0x01#8 rfl)).append
    (.command (i := .sendNow) rfl rfl)).to ?_
  simp [exchanged, pinsAt, clockLow, putBus, flushResponses, show sclHigh 0x01#8 Config.val0 = false from rfl]

/-! ## Parts of a burst, from between two bytes -/

theorem runs_wrByteBytes_exchanged :
    Runs (wrByteBytes c v) (exchanged es rs (l :: ls) k s)
      (exchanged (es ++ masterByte v l) (rs ++ [statusByte k l]) ls (k + 1) s) := by
  simpa using runs_wrByteBytes (s := exchanged es rs (l :: ls) k s) rfl rfl

theorem runs_rdByteBytes_exchanged (w : Bool) :
    Runs (rdByteBytes c w) (exchanged es rs (levelsOf b ++ ls) k s)
      (exchanged (es ++ [.byteIn b, .bitOut !w]) (rs ++ [b]) ls k s) := by
  simpa using runs_rdByteBytes (s := exchanged es rs (levelsOf b ++ ls) k s) w rfl rfl

/-- A START and the byte after it, from a released SDA. -/
theorem runs_start_wrByteBytes (h : sdaHigh s.bridge.dir s.bridge.val = true) (hl : s.inputs.levels = l :: ls) :
    Runs (startBytes ++ wrByteBytes c v) s
      (exchanged ([.start] ++ masterByte v l) [statusByte s.draws l] ls (s.draws + 1) s) := by
  rw [← exchanged_of_start]
  exact (runs_startBytes h).append (runs_wrByteBytes rfl hl)

/-- A repeated START and the byte after it. -/
theorem runs_start_wrByteBytes_exchanged :
    Runs (startBytes ++ wrByteBytes c v) (exchanged es rs (l :: ls) k s)
      (exchanged (es ++ ([.start] ++ masterByte v l)) (rs ++ [statusByte k l]) ls (k + 1) s) := by
  simpa using runs_start_wrByteBytes (s := exchanged es rs (l :: ls) k s) exchanged_sda_released rfl

/-- A plan of reads is begun by an acknowledged one but for the last. -/
theorem readPlan_add_two (c : NRepData) (n : Nat) : readPlan c (n + 2) = rdByteBytes c true ++ readPlan c (n + 1) := by
  simp [readPlan_succ, repeatBytes_succ]

/-- The read loop: every byte acknowledged but the last, and all of them visible (R158, R171, R174). -/
theorem runs_readPlan (data : List Byte) :
    Runs (readPlan c data.length) (exchanged es rs (levelsOfAll data ++ ls) k s)
      (exchanged (es ++ peerBytes data) (rs ++ data) ls k s) := by
  induction data using peerBytes.induct generalizing es rs with
  | case1 => simpa [readPlan, levelsOfAll, peerBytes] using Runs.nil
  | case2 b => simpa [readPlan, levelsOfAll, peerBytes] using runs_rdByteBytes_exchanged (b := b) false
  | case3 b b' rest ih =>
    have first := runs_rdByteBytes_exchanged (c := c) (b := b) (ls := levelsOfAll (b' :: rest) ++ ls) (es := es)
      (rs := rs) (k := k) (s := s) true
    simpa [readPlan_add_two, levelsOfAll, peerBytes] using first.append ih

end

/-! ## Whole bursts -/

section
variable {c : NRepData} {a : BitVec 7} {r v : Byte} {l0 l1 l2 : Bool} {ls : List Bool} {s : State}

theorem sda_released_of_neutral (hd : s.bridge.dir = 0x00#8) (hv : s.bridge.val = 0x00#8) :
    sdaHigh s.bridge.dir s.bridge.val = true := by
  rw [hd, hv]
  rfl

/-- The part both transactions begin with. -/
theorem runs_addressPart (hs : sdaHigh s.bridge.dir s.bridge.val = true) (hl : s.inputs.levels = l0 :: l1 :: ls) :
    Runs (addressPart c a r) s
      (exchanged ([.start] ++ masterByte (addrByte a 0#1) l0 ++ masterByte r l1)
        [statusByte s.draws l0, statusByte (s.draws + 1) l1] ls (s.draws + 2) s) :=
  (runs_start_wrByteBytes hs hl).append runs_wrByteBytes_exchanged

/-- The frame of a write, from released pins (R175, R177). -/
theorem runs_wrRegBurst (hs : sdaHigh s.bridge.dir s.bridge.val = true) (hl : s.inputs.levels = l0 :: l1 :: l2 :: ls) :
    Runs (wrRegBurst c a r v) s
      (pinsAt 0x00#8 (putBus [.stop]
        (exchanged ([.start] ++ masterByte (addrByte a 0#1) l0 ++ masterByte r l1 ++ masterByte v l2)
          [statusByte s.draws l0, statusByte (s.draws + 1) l1, statusByte (s.draws + 2) l2] ls (s.draws + 3) s))) :=
  ((runs_addressPart hs hl).append runs_wrByteBytes_exchanged).append (runs_stopBytes rfl)

/-- The frame of a read, from released pins; the repeated START finds SDA released (R171, R177). -/
theorem runs_rdRegBurst {n : Byte} {data : List Byte} (hs : sdaHigh s.bridge.dir s.bridge.val = true)
    (hn : data.length = n.toNat) (hl : s.inputs.levels = l0 :: l1 :: l2 :: (levelsOfAll data ++ ls)) :
    Runs (rdRegBurst c a r n) s
      (pinsAt 0x00#8 (putBus [.stop]
        (exchanged
          ([.start] ++ masterByte (addrByte a 0#1) l0 ++ masterByte r l1 ++ [.start] ++
            masterByte (addrByte a 1#1) l2 ++ peerBytes data)
          ([statusByte s.draws l0, statusByte (s.draws + 1) l1, statusByte (s.draws + 2) l2] ++ data) ls (s.draws + 3)
          s))) := by
  have reads := ((runs_addressPart (c := c) (a := a) (r := r) hs hl).append
    (runs_start_wrByteBytes_exchanged (c := c) (v := addrByte a 1#1))).append (runs_readPlan (c := c) data)
  simpa [rdRegBurst, hn] using reads.append (runs_stopBytes rfl)

end

/-- Settles O47: the burst runs to the end of its frame (`runs_wrRegBurst`); bit 0 of a status byte is the level. -/
theorem writeBurstPutsFrameOnBus : Obligations.WriteBurstPutsFrameOnBus := by
  intro c a r v s l0 l1 l2 ls hd hv hl
  have hs := sda_released_of_neutral hd hv
  obtain ⟨cs, hc, hx⟩ := (runs_wrRegBurst (c := c) (a := a) (r := r) (v := v) hs hl).decodes
  refine ⟨cs, _, _, _, _, hc, hx, ?frame, rfl, rfl, rfl, rfl, rfl, statusByte_getLsbD_zero _ _,
    statusByte_getLsbD_zero _ _, statusByte_getLsbD_zero _ _, rfl⟩
  exact List.append_assoc s.bus _ _

/-- Settles O48: the same for the read (`runs_rdRegBurst`). -/
theorem readBurstPutsFrameOnBus : Obligations.ReadBurstPutsFrameOnBus := by
  intro c a r n s l0 l1 l2 data ls hd hv hn hl
  have hs := sda_released_of_neutral hd hv
  obtain ⟨cs, hc, hx⟩ := (runs_rdRegBurst (c := c) (a := a) (r := r) hs hn hl).decodes
  refine ⟨cs, _, _, _, _, hc, hx, ?frame, rfl, rfl, rfl, rfl, rfl, statusByte_getLsbD_zero _ _,
    statusByte_getLsbD_zero _ _, statusByte_getLsbD_zero _ _, rfl⟩
  exact List.append_assoc s.bus _ _

end Sys2Proof.Machine
end

section
/-! The positions of the two transactions before their poll: the session check, the clearing of CB and the send. -/

namespace Sys2Proof.Machine

section
variable {s : State}

/-! ## The actions before the poll -/

theorem advance_tCheck (ho : s.op = .rdRegOp ∨ s.op = .wrRegOp) (hq : s.seq = .tCheck) :
    advance s = .next (sessionCheck s) := by
  obtain ho | ho := ho <;> simp [advance, ho, advanceRdReg, advanceWrReg, hq]

theorem advance_tBuild_clear (ho : s.op = .rdRegOp ∨ s.op = .wrRegOp) (hq : s.seq = .tBuild .clear) :
    advance s = .next (buildClear s) := by
  obtain ho | ho := ho <;> simp [advance, ho, advanceRdReg, advanceWrReg, hq]

theorem advance_rdReg_tTx (ho : s.op = .rdRegOp) (hq : s.seq = .tTx) :
    advance s = .next (sendBuffer (s.aCnt.toNat + 3) s) := by
  simp [advance, ho, advanceRdReg, hq]

theorem advance_wrReg_tTx (ho : s.op = .wrRegOp) (hq : s.seq = .tTx) : advance s = .next (sendBuffer 3 s) := by
  simp [advance, ho, advanceWrReg, hq]

/-- The session check by the session state (R170, R202). -/
theorem sessionCheck_of_op {o : HostOp} (ho : s.op = o) :
    sessionCheck s =
      if s.sess = .closed then report false .sessionState o.opc [] s else moveTo (.tBuild .clear) s := by
  cases hs : s.sess with
  | closed => rw [sessionCheck, hs, if_pos rfl]; exact fail_of_op ho
  | opened => rw [sessionCheck_opened hs, if_neg nofun]

/-! ## The step that sends -/

@[simp] theorem sendBuffer_txh (n : Nat) (s : State) : (sendBuffer n s).txh = s.txh ++ [s.cb] :=
  txWrite_txh s.cb s

theorem pollsHere_of_tTx (hq : s.seq = .tTx) : pollsHere s = false := by
  cases ho : s.op <;> simp [pollsHere, ho, hq]

/-- At T_TX the controller's step sends what the plan says CB holds, asks for `n` bytes and goes on to the poll
(R172). -/
theorem step_sends_built {n : Nat} {bs : List Byte} (hi : BuildInv s) (ht : s.turn = .controller) (hb : s.busy = true)
    (hq : s.seq = .tTx) (hs : builtSoFar s = some bs) (ha : advance s = .next (sendBuffer n s)) :
    ∃ t, step s = .next t ∧ t.txh = s.txh ++ [bs] ∧ t.expect = n ∧ t.seq = .tPoll := by
  have hp : ∀ p, s.seq = .tBuild p → primitiveAt s p = none := fun p h => by simp [hq] at h
  refine ⟨_, step_of_advance ht hb (pollsHere_of_tTx hq) hp ha, ?_, rfl, rfl⟩
  rw [endTurn_txh, sendBuffer_txh, hi.cb_eq hs]

end

/-- Settles O21: the action at T_CHECK is the session check, whose failure answers the operation's OPC. -/
theorem closedTransactionFailsFirst : Obligations.ClosedTransactionFailsFirst := by
  refine ⟨?read, ?write⟩
  case read =>
    intro r n s hb hi hq
    obtain ⟨ho, -⟩ := inProgress_eq_rdReg.1 hi
    rw [← hi, exec_inProgress hb, advance_tCheck (.inl ho) hq, sessionCheck_of_op ho]
    rfl
  case write =>
    intro r v s hb hi hq
    obtain ⟨ho, -⟩ := inProgress_eq_wrReg.1 hi
    rw [← hi, exec_inProgress hb, advance_tCheck (.inr ho) hq, sessionCheck_of_op ho]
    rfl

/-- Settles O22: the actions at the clearing position and at T_TX, with the count of the operation in progress. -/
theorem transactionClearsAndSendsBuffer : Obligations.TransactionClearsAndSendsBuffer := by
  refine ⟨?read, ?write⟩
  case read =>
    intro r n s hb hi
    obtain ⟨ho, -, rfl⟩ := inProgress_eq_rdReg.1 hi
    rw [← hi, exec_inProgress hb]
    exact ⟨fun hq => advance_tBuild_clear (.inl ho) hq, fun hq => advance_rdReg_tTx ho hq⟩
  case write =>
    intro r v s hb hi
    obtain ⟨ho, -⟩ := inProgress_eq_wrReg.1 hi
    rw [← hi, exec_inProgress hb]
    exact ⟨fun hq => advance_tBuild_clear (.inr ho) hq, fun hq => advance_wrReg_tTx ho hq⟩

/-- Settles O28: at T_TX the invariant makes CB the whole planned burst, and CB is what is sent. -/
theorem plannedBurstIsSent : Obligations.PlannedBurstIsSent := by
  intro s hi ht hb hq
  refine ⟨fun ho => ?write, fun ho => ?read⟩
  case write => exact step_sends_built hi ht hb hq (by simp [builtSoFar, ho, hq]) (advance_wrReg_tTx ho hq)
  case read => exact step_sends_built hi ht hb hq (by simp [builtSoFar, ho, hq]) (advance_rdReg_tTx ho hq)

end Sys2Proof.Machine
end
